-- ==== Sys2Proof/Word.lean ====
section
/-! DEFINITION. The word types of the two formats the spec encodes (30_encoding.md rules R6, R63, R70). -/

namespace Sys2Proof

/-- `u8` of rule R6. -/
abbrev Byte := BitVec 8

/-- The 64-bit command word of rule R63 (format CMD64 of the opcode table). -/
abbrev CommandWord := BitVec 64

/-- The 16-bit frame `{ctl, dig}` of rule R70 (format FRAME16 of the opcode table). -/
abbrev FrameWord := BitVec 16

/-- A word together with the place it arrives at.
`command` is a word on the command port `cmd` (rule R60). `frame` is a tube frame on the internal path from the
encoder to the serial shift driver (rule R90): it is no host operation (rule R62), see assumption log entry 5. -/
inductive PortWord where
  | command (w : CommandWord)
  | frame (w : FrameWord)
  deriving DecidableEq, Repr

end Sys2Proof
end

