-- ==== Sys2Proof/Syntax.lean ====
section
/-! DEFINITION. The operand types of rule R62 and the instruction type: one constructor per row of
spec/opcode_table.json. -/

namespace Sys2Proof

/-- `Digit` of rule R11: the integers 0..9, or `BLANK` (no digit lit). -/
inductive Digit where
  | figure (d : Fin 10)
  | blank
  deriving DecidableEq, Repr

/-- `Color` of rule R11: exactly one of seven. -/
inductive Color where
  | blue | green | red | white | redBlue | redGreen | blueGreen
  deriving DecidableEq, Repr

/-- `TubeState` of rule R11: five fields, read and written together. -/
structure TubeState where
  digit          : Digit
  color          : Color
  voltageEnabled : Bool
  comma          : Bool
  brightness     : Byte
  deriving DecidableEq, Repr

/-- `DEFAULT` of rules R25 and R140: what construction and `CLEAR` store in every tube. -/
def TubeState.dflt : TubeState :=
  { digit := .blank, color := .white, voltageEnabled := true, comma := false, brightness := 0 }

/-- The two bytes of a tube's frame (rule R70), control byte and digit byte. -/
structure Frame where
  ctl : Byte
  dig : Byte
  deriving DecidableEq, Repr

/-- `W = {ctl, dig}` of rule R70: the control byte in the high half. -/
def Frame.word (f : Frame) : FrameWord := f.ctl ++ f.dig

/-- The seven host operations of rule R62 with their abstract operand types, and the frame word of rule R90. -/
inductive Instr where
  /-- `SET_TUBE index, digit, color, voltage, comma, brightness` (rule R140). -/
  | setTube (index : Nat) (digit : Digit) (color : Color) (voltage comma : Bool) (brightness : Byte)
  /-- `SET_NUMBER value, color, leading_zeros, brightness` (rule R143). -/
  | setNumber (value : Int) (color : Color) (leadingZeros : Bool) (brightness : Byte)
  /-- `RENDER` (rule R150). -/
  | render
  /-- `CLEAR` (rule R155). -/
  | clear
  /-- `SET_BRIGHTNESS level` (rule R126). -/
  | setBrightness (level : Byte)
  /-- `SHIFT_BYTE value` (rule R111). -/
  | shiftByte (value : Byte)
  /-- `LATCH` (rule R114). -/
  | latch
  /-- `TUBE_FRAME`, the output word of `ENCODE` (rule R90), control byte and digit byte. -/
  | tubeFrame (ctl dig : Byte)
  deriving DecidableEq, Repr

end Sys2Proof
end

