-- ==== Sys2Proof/Config.lean ====
section
/-! DEFINITION. The implementation parameters of rule R5, and the values the spec leaves open. -/

namespace Sys2Proof

/-- `CTL_LAYOUT` of rule R5: where each named bit of the control byte lies. -/
structure CtlLayout where
  pD8    : Fin 8
  pD9    : Fin 8
  pR     : Fin 8
  pG     : Fin 8
  pB     : Fin 8
  pHV    : Fin 8
  pComma : Fin 8
  pSpare : Fin 8
  deriving DecidableEq, Repr

/-- The eight positions in the order rule R5 lists them. -/
def CtlLayout.positions (l : CtlLayout) : List (Fin 8) :=
  [l.pD8, l.pD9, l.pR, l.pG, l.pB, l.pHV, l.pComma, l.pSpare]

/-- Rule R71: the eight positions are a permutation of 0..7 (eight distinct values below 8). -/
abbrev CtlLayout.Valid (l : CtlLayout) : Prop := l.positions.Nodup

/-- The default `CTL_LAYOUT` of rule R5 (decision D1). -/
def CtlLayout.standard : CtlLayout :=
  { pD8 := 0, pD9 := 1, pR := 2, pG := 3, pB := 4, pHV := 5, pComma := 6, pSpare := 7 }

/-- `POLICY` of rule R5: `BestEffort` only; rule R157 leaves `Strict` out. -/
inductive Policy where
  | bestEffort
  deriving DecidableEq, Repr

/-- The parameters of rule R5. Read once by construction (rule R190), never changed by an operation.
`tBit` and `tLatch` are durations in a common unit; no rule depends on them (rules R117, R206). -/
structure Config where
  numTubes        : Nat
  layout          : CtlLayout
  linesAvailable  : Bool
  pwmAvailable    : Bool
  latchResetLevel : Bool
  tBit            : Nat
  tLatch          : Nat
  pwmFreqHz       : Nat
  policy          : Policy
  deriving DecidableEq, Repr

/-- Free bits: what the tubes' shift and storage stages hold after a construction (rule R25, U2).
Nothing constrains them (assumption log entry 4). -/
opaque Config.freeBit : Nat → Bool

/-- `LATCH_RESET_LEVEL` of the machine after reset, left OPEN by rule R5 and decision D10
(assumption log entry 3). -/
opaque Config.openLatchLevel : Bool

/-- The `n` free bits from number `start` on. -/
def Config.freeBits (start n : Nat) : List Bool := (List.range n).map fun k => Config.freeBit (start + k)

/-- The parameters of `State.reset`: the defaults of rule R5 where it gives one; `numTubes`, `pwmAvailable` and
`tBit` are the model's choice (DESIGN CHOICE, assumption log entry 2). -/
def Config.launch : Config :=
  { numTubes := 2, layout := CtlLayout.standard, linesAvailable := true, pwmAvailable := true,
    latchResetLevel := Config.openLatchLevel, tBit := 1, tLatch := 1000, pwmFreqHz := 1000, policy := .bestEffort }

end Sys2Proof
end

