-- ==== Sys2Proof/WellFormed.lean ====
section
/-! DEFINITION. Which instructions fit their encoding, and which parameters rule R5 admits. -/

namespace Sys2Proof

/-- The operands fit the fields of rule R64 (decision D16): an unsigned 32-bit index, a signed 32-bit value; and the
control byte of a frame has the spare bit of the layout in force at 0 (rules R70, R74). -/
def Instr.wf (l : CtlLayout) : Instr → Bool
  | .setTube index _ _ _ _ _ => decide (index < 2 ^ 32)
  | .setNumber value _ _ _ => decide (-(2 ^ 31) ≤ value) && decide (value < 2 ^ 31)
  | .render => true
  | .clear => true
  | .setBrightness _ => true
  | .shiftByte _ => true
  | .latch => true
  | .tubeFrame ctl _ => !ctl.getLsbD l.pSpare

/-- The ranges of rule R5, with the bound on `NUM_TUBES` that holds where the packed word is used (decision D16). -/
abbrev Config.Valid (c : Config) : Prop :=
  1 ≤ c.numTubes ∧ c.numTubes ≤ 2 ^ 32 ∧ c.layout.Valid ∧ 0 < c.tBit ∧ c.tBit < c.tLatch ∧ 0 < c.pwmFreqHz

end Sys2Proof
end

