-- ==== Sys2Proof/Decode.lean ====
section
/-! DEFINITION. The decoder of both formats, total, refusing by name (rules R63 to R68), and the encoder. -/

namespace Sys2Proof

/-- Why a word is no admitted operation (rule R68). -/
inductive DecodeError where
  /-- `cmd[63:56]` is 0x00 or 0x08..0xFF. -/
  | reservedOpcode
  /-- A bit rule R64 does not assign to the operation is set. -/
  | reservedBitSet
  /-- `SET_TUBE` with a `digit` code in 0xA..0xE (rule R65). -/
  | reservedDigitCode
  /-- `SET_TUBE` or `SET_NUMBER` with `color` code 0 (rule R66). -/
  | reservedColorCode
  /-- A frame word with `SPARE` set: `ctl[P_SPARE]` is always 0 (rule R74; the fixed 0 of the TUBE_FRAME row). -/
  | spareBitSet
  deriving DecidableEq, Repr

/-- The operations of rule R62 by name. -/
inductive Opcode where
  | setTube | setNumber | render | clear | setBrightness | shiftByte | latch
  deriving DecidableEq, Repr

/-- One row of the match and mask table of rule R64. -/
structure CommandRow where
  op      : Opcode
  pattern : CommandWord
  mask    : CommandWord
  deriving DecidableEq, Repr

/-- The match and mask table of rule R64. -/
def commandRows : List CommandRow :=
  [ { op := .setTube,       pattern := 0x0100000000000000, mask := 0xFF00000000007F00 },
    { op := .setNumber,     pattern := 0x0200000000000000, mask := 0xFF00000000F0FF00 },
    { op := .render,        pattern := 0x0300000000000000, mask := 0xFFFFFFFFFFFFFFFF },
    { op := .clear,         pattern := 0x0400000000000000, mask := 0xFFFFFFFFFFFFFFFF },
    { op := .setBrightness, pattern := 0x0500000000000000, mask := 0xFFFFFFFFFFFFFF00 },
    { op := .shiftByte,     pattern := 0x0600000000000000, mask := 0xFFFFFFFFFFFFFF00 },
    { op := .latch,         pattern := 0x0700000000000000, mask := 0xFFFFFFFFFFFFFFFF } ]

/-- `w & mask = match` (rule R64). -/
def CommandRow.selects (r : CommandRow) (w : CommandWord) : Bool := w &&& r.mask == r.pattern

/-- The operation whose row the word selects. -/
def selectOpcode (w : CommandWord) : Option Opcode := (commandRows.find? (·.selects w)).map (·.op)

/-! The fields of rule R64. -/

def opcodeField (w : CommandWord) : BitVec 8 := w.extractLsb' 56 8
def wideField (w : CommandWord) : BitVec 32 := w.extractLsb' 24 32
def digitField (w : CommandWord) : BitVec 4 := w.extractLsb' 20 4
def colorField (w : CommandWord) : BitVec 3 := w.extractLsb' 17 3
def bit16Field (w : CommandWord) : Bool := w.getLsbD 16
def commaField (w : CommandWord) : Bool := w.getLsbD 15
def byteField (w : CommandWord) : Byte := w.extractLsb' 0 8

/-- The digit codes of rule R65; `none` for the reserved codes 0xA..0xE. -/
def decodeDigit (c : BitVec 4) : Option Digit :=
  if h : c.toNat < 10 then some (.figure ⟨c.toNat, h⟩) else if c = 0xF#4 then some .blank else none

/-- The colour codes of rule R66; `none` for the reserved code 0. -/
def decodeColor (c : BitVec 3) : Option Color :=
  match c.toNat with
  | 1 => some .blue
  | 2 => some .green
  | 3 => some .red
  | 4 => some .white
  | 5 => some .redBlue
  | 6 => some .redGreen
  | 7 => some .blueGreen
  | _ => none

/-- Why a word that selects no row is refused: its opcode is not one of 0x01..0x07, or a reserved bit is set. -/
def rejection (w : CommandWord) : DecodeError :=
  if 1 ≤ (opcodeField w).toNat ∧ (opcodeField w).toNat ≤ 7 then .reservedBitSet else .reservedOpcode

/-- The admitted operation a 64-bit word is, or why it is none (rule R68). The `index` is `zext(cmd[55:24])`, the
`value` `sext(cmd[55:24])` (rule R64). -/
def decodeCommand (w : CommandWord) : Except DecodeError Instr :=
  match selectOpcode w with
  | none => .error (rejection w)
  | some .setTube =>
    match decodeDigit (digitField w), decodeColor (colorField w) with
    | none, _ => .error .reservedDigitCode
    | some _, none => .error .reservedColorCode
    | some d, some c => .ok (.setTube (wideField w).toNat d c (bit16Field w) (commaField w) (byteField w))
  | some .setNumber =>
    match decodeColor (colorField w) with
    | none => .error .reservedColorCode
    | some c => .ok (.setNumber (wideField w).toInt c (bit16Field w) (byteField w))
  | some .render => .ok .render
  | some .clear => .ok .clear
  | some .setBrightness => .ok (.setBrightness (byteField w))
  | some .shiftByte => .ok (.shiftByte (byteField w))
  | some .latch => .ok .latch

/-- A frame word at the layout `l`: `ctl` is `W[15:8]`, `dig` is `W[7:0]`, and `SPARE`, bit `P_SPARE` of `ctl`, is 0
(rules R70, R74). At the default layout this is the row `0MVBGRNEdddddddd`, whose bit 15 is fixed at 0. -/
def decodeFrame (l : CtlLayout) (w : FrameWord) : Except DecodeError Instr :=
  if w.getLsbD (8 + l.pSpare) then .error .spareBitSet else .ok (.tubeFrame (w.extractLsb' 8 8) (w.extractLsb' 0 8))

/-- The decoder of both formats; the layout matters to frames only (rule R70). -/
def decode (l : CtlLayout) : PortWord → Except DecodeError Instr
  | .command w => decodeCommand w
  | .frame w => decodeFrame l w

/-- The word whose bits the opcode table numbers: 16 bits for the frame row, 64 bits for the commands. -/
def tableWord (nbits w : Nat) : PortWord :=
  if nbits ≤ 16 then .frame (BitVec.ofNat 16 w) else .command (BitVec.ofNat 64 w)

/-- What the decoder reads from an instruction whose bits, numbered as the opcode table numbers them, are `w`. The
table gives the frame row at the default layout. -/
def decodeTableWord (nbits w : Nat) : Option Instr :=
  match decode CtlLayout.standard (tableWord nbits w) with
  | .ok i => some i
  | .error _ => none

/-! The encoder, from the same tables. -/

/-- Rule R65. -/
def encodeDigit : Digit → BitVec 4
  | .figure d => BitVec.ofNat 4 d.val
  | .blank => 0xF

/-- Rule R66. -/
def encodeColor : Color → BitVec 3
  | .blue => 1
  | .green => 2
  | .red => 3
  | .white => 4
  | .redBlue => 5
  | .redGreen => 6
  | .blueGreen => 7

/-- A word of a row of rule R64 from its fields, high to low:
opcode, `[55:24]`, `[23:20]`, `[19:17]`, `[16]`, `[15]`, `[14:8]` always 0, `[7:0]`. -/
def packCommand (op : BitVec 8) (wide : BitVec 32) (digit : BitVec 4) (color : BitVec 3) (b16 b15 : Bool)
    (low : Byte) : CommandWord :=
  op ++ wide ++ digit ++ color ++ BitVec.ofBool b16 ++ BitVec.ofBool b15 ++ 0#7 ++ low

/-- The word of an instruction whose operands fit it (`Instr.wf`). -/
def encode : Instr → PortWord
  | .setTube index d c v m b =>
    .command (packCommand 0x01 (BitVec.ofNat 32 index) (encodeDigit d) (encodeColor c) v m b)
  | .setNumber value c z b => .command (packCommand 0x02 (BitVec.ofInt 32 value) 0 (encodeColor c) z false b)
  | .render => .command (packCommand 0x03 0 0 0 false false 0)
  | .clear => .command (packCommand 0x04 0 0 0 false false 0)
  | .setBrightness level => .command (packCommand 0x05 0 0 0 false false level)
  | .shiftByte value => .command (packCommand 0x06 0 0 0 false false value)
  | .latch => .command (packCommand 0x07 0 0 0 false false 0)
  | .tubeFrame ctl dig => .frame (Frame.word { ctl := ctl, dig := dig })

end Sys2Proof
end

