-- ==== Sys2Proof/Machine/State.lean ====
section
/-! DEFINITION. The state of the block (rule R10), of the tube chain (rule R30) and of the host's side of the port
(rule R60), as plain data; its value after reset (rule R25); why a step can stop. -/

namespace Sys2Proof.Machine

/-- The two holds of rule R8: `WAIT(T_BIT)` and `WAIT(T_LATCH)`. -/
inductive Hold where
  | tBit | tLatch
  deriving DecidableEq, Repr

/-- The event alphabet of rule R8. -/
inductive Event where
  | data (b : Bool)
  | clk (b : Bool)
  | lat (b : Bool)
  | en (b : Bool)
  | duty (level : Byte)
  | diag (level : Byte)
  | wait (t : Hold)
  deriving DecidableEq, Repr

/-- `backend` of rule R19. -/
inductive Backend where
  | pwm | digital
  deriving DecidableEq, Repr

/-- `init_status` of rule R23: 0, 1 and 2; the code 3 is never produced. -/
inductive InitStatus where
  | ready | degraded | initFatal
  deriving DecidableEq, Repr

/-- What the host does at one step (rules R60, R200; assumption log entry 6). -/
inductive HostInput where
  /-- Nothing is presented: `rst = 0`, `cmd_valid = 0`. -/
  | idle
  /-- A word is presented. -/
  | present (w : PortWord)
  /-- `rst` while no operation is in progress, with the parameters construction reads (rule R190). -/
  | construct (c : Config)
  /-- A word is presented, and `rst` cuts its operation short after `k` events (rule R176, U7). -/
  | cutShort (w : PortWord) (k : Nat) (c : Config)
  deriving DecidableEq, Repr

/-- Everything the spec gives the machine. `cfg` holds the parameters of rule R5, which are not state: only
construction writes them. `trace` is the output trace of rule R8, oldest event first. `input` and `freeCtr` are the
model's own: what the host presents at the coming steps, and how many free bits have been used. -/
structure State where
  cfg        : Config
  buf        : List TubeState
  clk        : Bool
  dat        : Bool
  lat        : Bool
  backend    : Backend
  dutyLevel  : Byte
  committed  : Option (List TubeState)
  busy       : Bool
  upc        : Nat
  initStatus : InitStatus
  cmdInvalid : Bool
  sr         : List Bool
  store      : List Bool
  trace      : List Event
  input      : List HostInput
  freeCtr    : Nat
  deriving DecidableEq, Repr

/-- No step faults: the spec's only raised exception, `InitFatal`, is a state with `init_status = 2`
(rule R171, assumption log entry 8), and after construction no operation faults (rules R170, R174). Safe: nothing is
hidden by it, since there is no constructor to raise. -/
inductive Fault where
  deriving DecidableEq, Repr

/-- Why the model gives a step no meaning. -/
inductive Refusal where
  /-- Raised by an arm of `exec` whose instruction has no meaning yet, by none at present. Safe. -/
  | notModelled (mnemonic : String)
  /-- Raised by `step` where the host constructs with parameters outside the ranges of rule R5, for which the spec
  gives construction no effect. Safe: the run ends. -/
  | parametersOutOfRange
  /-- Raised by `step` for a frame word with the spare bit of the layout in force set: no frame has it (rule R74), and
  the spec gives such a word no meaning on the frame path. Safe: the run ends. -/
  | frameOutsideTable
  deriving DecidableEq, Repr

/-- The machine after a successful construction with the parameters `Config.launch` (rule R25): nothing shifted,
nothing latched, the trace the single event `DUTY(255)` (rule R190). The tubes hold free bits (log entry 4). -/
def State.reset : State :=
  { cfg := Config.launch
    buf := List.replicate Config.launch.numTubes TubeState.dflt
    clk := false
    dat := false
    lat := Config.launch.latchResetLevel
    backend := .pwm
    dutyLevel := 255
    committed := none
    busy := false
    upc := 0
    initStatus := .ready
    cmdInvalid := false
    sr := Config.freeBits 0 (16 * Config.launch.numTubes)
    store := Config.freeBits (16 * Config.launch.numTubes) (16 * Config.launch.numTubes)
    trace := [.duty 255]
    input := []
    freeCtr := 32 * Config.launch.numTubes }

end Sys2Proof.Machine
end

