-- ==== Sys2Proof/Machine/Ops.lean ====
section
/-! DEFINITION. The operations every meaning is made of: the buffer (rules R40 to R43), emitting an event (rules R7,
R8, R16 to R19, R30), performing an operation (rules R21, R22, R50, R61), construction and `InitFatal`
(rules R125, R171, R190), and the output port (rule R60). -/

namespace Sys2Proof.Machine

/-! The buffer space. -/

/-- A buffer with one entry per tube (rule R12): the canonical form of the buffer space. -/
abbrev Memory.wf (numTubes : Nat) (buf : List TubeState) : Prop := buf.length = numTubes

/-- `buf[index]` (rule R7); `none` where there is no such entry. -/
def Memory.read (buf : List TubeState) (index : Nat) : Option TubeState := buf[index]?

/-- `buf[index] <- t` (rule R43: the whole entry). -/
def Memory.write (buf : List TubeState) (index : Nat) (t : TubeState) : List TubeState := buf.set index t

/-- `buf[i] <- f i` for `i` from 0 to `numTubes - 1`: every entry written. -/
def Memory.fill (numTubes : Nat) (f : Nat → TubeState) : List TubeState := (List.range numTubes).map f

/-! Events. -/

/-- Rule R30: `SR[p] <- SR[p-1]`, `SR[0] <- b`; the bit in the last stage falls off the end. -/
def shiftIn (b : Bool) (sr : List Bool) : List Bool := (b :: sr).dropLast

/-- The effect of an event on the line and duty registers (rules R16 to R19) and on the tubes (rule R30), whose edges
are judged on the register before the event is applied. `EN`, `DIAG` and `WAIT` have none. -/
def applyEvent (e : Event) (s : State) : State :=
  match e with
  | .data b => { s with dat := b }
  | .clk b => { s with clk := b, sr := if b && !s.clk then shiftIn s.dat s.sr else s.sr }
  | .lat b => { s with lat := b, store := if b && !s.lat then s.sr else s.store }
  | .en _ => s
  | .duty level => { s with dutyLevel := level }
  | .diag _ => s
  | .wait _ => s

/-- `emit e` of rule R7: the event's effect, the event at the end of the trace, `upc` one more (rule R22). -/
def emit (e : Event) (s : State) : State :=
  { applyEvent e s with trace := s.trace ++ [e], upc := s.upc + 1 }

/-- Events emitted strictly in the order listed (rule R50). -/
def emitAll (es : List Event) (s : State) : State := es.foldl (fun s e => emit e s) s

/-! Performing an operation. -/

/-- `cmd_ready = not busy and init_status != 2` (rule R60). -/
def State.cmdReady (s : State) : Bool := !s.busy && s.initStatus != .initFatal

/-- What an accepted operation does: the buffer it stages before its first event, the events it emits, and whether it
ends with `committed <- buf` (rule R20). -/
structure Plan where
  buf     : List TubeState
  events  : List Event
  commits : Bool
  deriving DecidableEq, Repr

/-- Acceptance (rules R22, R61): `busy <- 1`, `upc` left 0, and the buffer writes that come before any event. -/
def beginPlan (p : Plan) (s : State) : State := { s with busy := true, upc := 0, buf := p.buf }

/-- The end of an operation (rules R20, R22): the ghost `committed` where the operation is a render, then
`upc <- 0` and `busy <- 0`. -/
def endPlan (p : Plan) (s : State) : State :=
  { s with committed := if p.commits then some s.buf else s.committed, upc := 0, busy := false }

/-- The operation stopped after its first `k` events: `upc` is the number of events emitted (rule R22). -/
def midPlan (p : Plan) (k : Nat) (s : State) : State := emitAll (p.events.take k) (beginPlan p s)

/-- An operation performed to completion (rules R50, R61). A word presented while `cmd_ready = 0` is not accepted and
has no effect. -/
def runPlan (p : Plan) (s : State) : Host.Outcome State Fault Refusal :=
  if s.cmdReady then .next (endPlan p (emitAll p.events (beginPlan p s))) else .next s

/-! Construction. -/

/-- The tubes after a construction hold any bits (rule R25, U2, U7): fresh free bits (assumption log entry 4). -/
def freeTubes (s : State) : State :=
  { s with
    sr := Config.freeBits s.freeCtr (16 * s.cfg.numTubes)
    store := Config.freeBits (s.freeCtr + 16 * s.cfg.numTubes) (16 * s.cfg.numTubes)
    freeCtr := s.freeCtr + 32 * s.cfg.numTubes }

/-- `CONSTRUCT_BRIGHTNESS` of rule R125: `DUTY(255)` on the PWM backend, `EN(1)` on the DIGITAL one. -/
def constructBrightness (s : State) : State :=
  if s.cfg.pwmAvailable then emit (.duty 255) { s with backend := .pwm, dutyLevel := 255 }
  else emit (.en true) { s with backend := .digital, dutyLevel := 255 }

/-- `raise InitFatal` of rule R171: no buffer, no line registers and no brightness gate exist, `init_status = 2`, no
event. The fields that do not exist hold placeholders nothing reads while `init_status = 2` (log entry 8). -/
def raiseInitFatal (s : State) : State :=
  { s with
    buf := [], clk := false, dat := false, lat := false, backend := .digital, dutyLevel := 0, committed := none
    busy := false, upc := 0, initStatus := .initFatal, cmdInvalid := false }

/-- The constructions that succeed, in the order of rule R190. -/
def constructBlock (s : State) : State :=
  let s := constructBrightness { s with clk := false, dat := false, lat := s.cfg.latchResetLevel }
  { s with
    buf := Memory.fill s.cfg.numTubes fun _ => TubeState.dflt
    committed := none, busy := false, upc := 0, cmdInvalid := false
    initStatus := if s.cfg.pwmAvailable then .ready else .degraded }

/-- `CONSTRUCT` of rule R190 with the parameters `c`: nothing of the old block is kept (rule R179). The trace is the
record of what the lines did, so it goes on. -/
def construct (c : Config) (s : State) : State :=
  let s := freeTubes { s with cfg := c }
  if c.linesAvailable then constructBlock s else raiseInitFatal s

/-- `rst` at the port: construction, refused where the parameters are outside the ranges of rule R5. -/
def reconstruct (c : Config) (s : State) : Host.Outcome State Fault Refusal :=
  if c.Valid then .next (construct c s) else .refused .parametersOutOfRange

/-! The port. -/

/-- What the host presents at this step, and the state with that taken from the list and the `cmd_invalid` strobe low
again (rule R60: a one-event strobe). -/
def fetch (s : State) : HostInput × State :=
  match s.input with
  | [] => (.idle, { s with cmdInvalid := false })
  | x :: rest => (x, { s with input := rest, cmdInvalid := false })

/-- An invalid word (rule R68): accepted where the port is ready, no state changes, no event, `cmd_invalid` pulsed. -/
def absorbInvalid (s : State) : State := if s.cmdReady then { s with cmdInvalid := true } else s

/-- A word that is no admitted operation: absorbed on the command port (rule R68, log entry 7); refused by name on the
frame path, where the spec says nothing of it. -/
def rejectWord (w : PortWord) (s : State) : Host.Outcome State Fault Refusal :=
  match w with
  | .command _ => .next (absorbInvalid s)
  | .frame _ => .refused .frameOutsideTable

/-- The two-bit code of `init_status` (rule R23). -/
def InitStatus.code : InitStatus → BitVec 2
  | .ready => 0
  | .degraded => 1
  | .initFatal => 2

/-- The output signals of rule R60 that are levels; the `DIAG` strobe is read off the event (`Event.diagnosed`). -/
structure Ports where
  cmdReady   : Bool
  cmdInvalid : Bool
  initStatus : BitVec 2
  sclk       : Bool
  sdat       : Bool
  slat       : Bool
  enMode     : Bool
  enDuty     : Byte
  deriving DecidableEq, Repr

/-- The output signals in a state (rule R60): `en_mode` is 0 on PWM and 1 on DIGITAL. -/
def ports (s : State) : Ports :=
  { cmdReady := s.cmdReady, cmdInvalid := s.cmdInvalid, initStatus := s.initStatus.code
    sclk := s.clk, sdat := s.dat, slat := s.lat, enMode := s.backend == .digital, enDuty := s.dutyLevel }

/-- `diag_brightness_ignored` and `diag_level` (rule R60): the level of a `DIAG` event. -/
def Event.diagnosed : Event → Option Byte
  | .diag level => some level
  | .data _ => none
  | .clk _ => none
  | .lat _ => none
  | .en _ => none
  | .duty _ => none
  | .wait _ => none

/-- The buffer is committed when it matches the last render, staged otherwise (rules R20, R156). -/
def State.isCommitted (s : State) : Bool := s.committed == some s.buf

end Sys2Proof.Machine
end

