-- ==== Sys2Proof/Machine/Operands.lean ====
section
/-! DEFINITION. Operand forms: the index bound of `SET_TUBE` (rule R42), the decimal digits of `SET_NUMBER`
(rules R143 to R149), the brightness operand (rules R126 to R129). -/

namespace Sys2Proof.Machine

/-- `0 <= index < NUM_TUBES` (rule R42). -/
def indexInRange (s : State) (index : Nat) : Bool := decide (index < s.cfg.numTubes)

/-- How many decimal digits `m` has (1 for a one-digit number), looking at no more than `fuel + 1` of them. -/
def decimalLengthFuel : Nat → Nat → Nat
  | 0, _ => 1
  | fuel + 1, m => if m < 10 then 1 else decimalLengthFuel fuel (m / 10) + 1

/-- `len` of rule R143: the number of digits of the base-10 numeral of `m`, 1 when `m = 0` (rule R144). A number has
no more decimal digits than binary ones. -/
def decimalLength (m : Nat) : Nat := decimalLengthFuel m.log2 m

/-- `D[k] = floor(m / 10^k) mod 10` (rule R143). -/
def decimalDigit (m k : Nat) : Fin 10 := Fin.ofNat 10 (m / 10 ^ k)

/-- The digit tube `i` shows for the magnitude `m` (rules R145, R146, R148): the digit of weight `10^i` while there is
one, beyond them 0 or `BLANK`. -/
def numberDigit (m : Nat) (leadingZeros : Bool) (i : Nat) : Digit :=
  if i < decimalLength m then .figure (decimalDigit m i)
  else if leadingZeros then .figure 0
  else .blank

/-- `T(d)` of rule R143: voltage on and no comma (rule R149). -/
def numberEntry (color : Color) (brightness : Byte) (d : Digit) : TubeState :=
  { digit := d, color := color, voltageEnabled := true, comma := false, brightness := brightness }

/-- The duty fraction `level / 255` of rule R128, exact. -/
def dutyFraction (level : Byte) : ℚ := (level.toNat : ℚ) / 255

end Sys2Proof.Machine
end

