-- ==== Sys2Proof/Machine/Buffer.lean ====
section
/-! DEFINITION. The staging setters: `SET_TUBE` (rules R140, R141), `SET_NUMBER` (rules R143 to R149). -/

namespace Sys2Proof.Machine

/-- The buffer after `SET_TUBE`: one whole entry overwritten, or nothing where the index is out of range
(rules R43, R141). -/
def planSetTube (index : Nat) (t : TubeState) (s : State) : Plan :=
  { buf := if indexInRange s index then Memory.write s.buf index t else s.buf, events := [], commits := false }

/-- The buffer after `SET_NUMBER`: every entry overwritten (rule R143), from the magnitude of the value
(rule R147). -/
def planSetNumber (value : Int) (color : Color) (leadingZeros : Bool) (brightness : Byte) (s : State) : Plan :=
  { buf := Memory.fill s.cfg.numTubes fun i =>
      numberEntry color brightness (numberDigit value.natAbs leadingZeros i)
    events := []
    commits := false }

/-- `SET_TUBE` (rule R140). -/
def execSetTube (index : Nat) (digit : Digit) (color : Color) (voltage comma : Bool) (brightness : Byte) (s : State) :
    Host.Outcome State Fault Refusal :=
  runPlan (planSetTube index
    { digit := digit, color := color, voltageEnabled := voltage, comma := comma, brightness := brightness } s) s

/-- `SET_NUMBER` (rule R143). -/
def execSetNumber (value : Int) (color : Color) (leadingZeros : Bool) (brightness : Byte) (s : State) :
    Host.Outcome State Fault Refusal :=
  runPlan (planSetNumber value color leadingZeros brightness s) s

end Sys2Proof.Machine
end

