-- ==== Sys2Proof/Machine/Brightness.lean ====
section
/-! DEFINITION. brightness_pwm_gate: `SET_BRIGHTNESS` (rules R125 to R133). -/

namespace Sys2Proof.Machine

/-- The one event of `SET_BRIGHTNESS(level)` (rule R126): `DUTY` on the PWM backend, `DIAG` on the DIGITAL one. The
write of `duty_level` is the effect of `DUTY` (rule R19). -/
def brightnessEvents (backend : Backend) (level : Byte) : List Event :=
  match backend with
  | .pwm => [.duty level]
  | .digital => [.diag level]

def planSetBrightness (level : Byte) (s : State) : Plan :=
  { buf := s.buf, events := brightnessEvents s.backend level, commits := false }

/-- `SET_BRIGHTNESS` (rule R126). -/
def execSetBrightness (level : Byte) (s : State) : Host.Outcome State Fault Refusal :=
  runPlan (planSetBrightness level s) s

end Sys2Proof.Machine
end

