-- ==== Sys2Proof/Machine/Flags.lean ====
section
/-! DEFINITION. The bits of the control byte: masks, base pattern, colour clear masks, digit flags (rules R70 to R74,
R92 to R97). The block has no condition flags (rule R21). -/

namespace Sys2Proof.Machine

/-- `M_x = 1 << P_x` (rule R90). -/
def bitMask (p : Fin 8) : Byte := 1#8 <<< p.val

/-- `COLOR_MASK = M_R | M_G | M_B` (rule R73). -/
def colorMask (l : CtlLayout) : Byte := bitMask l.pR ||| bitMask l.pG ||| bitMask l.pB

/-- `BASE` of rule R74: the three colour bits set, every other bit clear. -/
def basePattern (l : CtlLayout) : Byte := colorMask l

/-- `CLEAR(color)` of rule R73: the colour bits of the lines the colour selects. -/
def clearMask (l : CtlLayout) : Color → Byte
  | .blue => bitMask l.pB
  | .green => bitMask l.pG
  | .red => bitMask l.pR
  | .white => bitMask l.pR ||| bitMask l.pG ||| bitMask l.pB
  | .redBlue => bitMask l.pR ||| bitMask l.pB
  | .redGreen => bitMask l.pR ||| bitMask l.pG
  | .blueGreen => bitMask l.pB ||| bitMask l.pG

/-- `ctl | m` where the condition holds, `ctl` unchanged where not (rules R93, R94, R96, R97). -/
def setWhen (cond : Bool) (m ctl : Byte) : Byte := if cond then ctl ||| m else ctl

/-- `ctl & ~CLEAR(color)` (rule R95). -/
def clearColor (l : CtlLayout) (c : Color) (ctl : Byte) : Byte := ctl &&& ~~~ clearMask l c

end Sys2Proof.Machine
end

