-- ==== Sys2Proof/Machine/Encoder.lean ====
section
/-! DEFINITION. nixie_state_encoder: `ENCODE` (rules R90 to R98). -/

namespace Sys2Proof.Machine

/-- The digit byte of rule R91: one-hot for 0..7, zero for 8, 9 and `BLANK`. -/
def digitByte : Digit → Byte
  | .figure d => if d.val ≤ 7 then 1#8 <<< d.val else 0
  | .blank => 0

/-- The control byte, in the order of the pseudocode of rule R90. -/
def controlByte (l : CtlLayout) (t : TubeState) : Byte :=
  setWhen t.comma (bitMask l.pComma)
    (setWhen t.voltageEnabled (bitMask l.pHV)
      (clearColor l t.color
        (setWhen (t.digit == .figure 9) (bitMask l.pD9)
          (setWhen (t.digit == .figure 8) (bitMask l.pD8) (basePattern l)))))

/-- `ENCODE(s) -> (ctl, dig)` of rule R90. The brightness is not read (rule R98). -/
def encodeTube (l : CtlLayout) (t : TubeState) : Frame := { ctl := controlByte l t, dig := digitByte t.digit }

end Sys2Proof.Machine
end

