-- ==== Sys2Proof/Machine/Serial.lean ====
section
/-! DEFINITION. serial_shift_driver: `SHIFT_BYTE`, `LATCH` (rules R110 to R119), and sending a frame word. -/

namespace Sys2Proof.Machine

/-- One bit of rule R111: data, hold, clock up, hold, clock down, hold. -/
def bitEvents (b : Bool) : List Event :=
  [.data b, .wait .tBit, .clk true, .wait .tBit, .clk false, .wait .tBit]

/-- `SHIFT_BYTE(value)` of rule R111: bit 7 first, bit 0 last (rule R45). -/
def byteEvents (value : Byte) : List Event :=
  [7, 6, 5, 4, 3, 2, 1, 0].flatMap fun k => bitEvents (value.getLsbD k)

/-- A frame: the control byte first, the digit byte second (rule R44). -/
def frameEvents (f : Frame) : List Event := byteEvents f.ctl ++ byteEvents f.dig

/-- `LATCH()` of rule R114: low, hold, high, and left high (rule R115). -/
def latchEvents : List Event := [.lat false, .wait .tLatch, .lat true]

def planShiftByte (value : Byte) (s : State) : Plan := { buf := s.buf, events := byteEvents value, commits := false }

def planLatch (s : State) : Plan := { buf := s.buf, events := latchEvents, commits := false }

def planTubeFrame (ctl dig : Byte) (s : State) : Plan :=
  { buf := s.buf, events := frameEvents { ctl := ctl, dig := dig }, commits := false }

/-- `SHIFT_BYTE` (rule R111). -/
def execShiftByte (value : Byte) (s : State) : Host.Outcome State Fault Refusal := runPlan (planShiftByte value s) s

/-- `LATCH` (rule R114). -/
def execLatch (s : State) : Host.Outcome State Fault Refusal := runPlan (planLatch s) s

/-- `TUBE_FRAME`: the frame word goes on the wire as a render sends it (rules R44, R90, R150; log entry 5). -/
def execTubeFrame (ctl dig : Byte) (s : State) : Host.Outcome State Fault Refusal :=
  runPlan (planTubeFrame ctl dig s) s

end Sys2Proof.Machine
end

