-- ==== Sys2Proof/Machine/Render.lean ====
section
/-! DEFINITION. The render sequencer: `RENDER` (rules R150 to R154), `CLEAR` (rule R155). -/

namespace Sys2Proof.Machine

/-- What `RENDER` emits for one tube (rule R150): its brightness event, then its frame. -/
def tubeEvents (l : CtlLayout) (backend : Backend) (t : TubeState) : List Event :=
  brightnessEvents backend t.brightness ++ frameEvents (encodeTube l t)

/-- The event list of `RENDER` (rule R150): the tubes from the last index down to 0 (rule R46), then one latch. -/
def renderEvents (l : CtlLayout) (backend : Backend) (buf : List TubeState) : List Event :=
  buf.reverse.flatMap (tubeEvents l backend) ++ latchEvents

def planRender (s : State) : Plan :=
  { buf := s.buf, events := renderEvents s.cfg.layout s.backend s.buf, commits := true }

/-- `CLEAR` resets every entry, then renders the buffer it has reset (rule R155). -/
def planClear (s : State) : Plan :=
  let cleared := Memory.fill s.cfg.numTubes fun _ => TubeState.dflt
  { buf := cleared, events := renderEvents s.cfg.layout s.backend cleared, commits := true }

/-- `RENDER` (rule R150). -/
def execRender (s : State) : Host.Outcome State Fault Refusal := runPlan (planRender s) s

/-- `CLEAR` (rule R155). -/
def execClear (s : State) : Host.Outcome State Fault Refusal := runPlan (planClear s) s

end Sys2Proof.Machine
end

