-- ==== Sys2Proof/Machine/Dispatch.lean ====
section
/-! DEFINITION. One arm per instruction, each one call of its meaning. -/

namespace Sys2Proof.Machine

/-- What an instruction does in a state. -/
def exec (i : Instr) (s : State) : Host.Outcome State Fault Refusal :=
  match i with
  | .setTube index digit color voltage comma brightness => Sys2Proof.Machine.execSetTube index digit color voltage comma brightness s
  | .setNumber value color leadingZeros brightness => Sys2Proof.Machine.execSetNumber value color leadingZeros brightness s
  | .render => Sys2Proof.Machine.execRender s
  | .clear => Sys2Proof.Machine.execClear s
  | .setBrightness level => Sys2Proof.Machine.execSetBrightness level s
  | .shiftByte value => Sys2Proof.Machine.execShiftByte value s
  | .latch => Sys2Proof.Machine.execLatch s
  | .tubeFrame ctl dig => Sys2Proof.Machine.execTubeFrame ctl dig s

end Sys2Proof.Machine
end

