-- ==== Sys2Proof/Machine/Progress.lean ====
section
/-! DEFINITION. An operation in progress: its plan, the state after its first events (rule R22), and `rst` while it
runs (rule R176, U7). -/

namespace Sys2Proof.Machine

/-- The plan each instruction's meaning performs. -/
def planOf (i : Instr) (s : State) : Plan :=
  match i with
  | .setTube index digit color voltage comma brightness =>
    planSetTube index
      { digit := digit, color := color, voltageEnabled := voltage, comma := comma, brightness := brightness } s
  | .setNumber value color leadingZeros brightness => planSetNumber value color leadingZeros brightness s
  | .render => planRender s
  | .clear => planClear s
  | .setBrightness level => planSetBrightness level s
  | .shiftByte value => planShiftByte value s
  | .latch => planLatch s
  | .tubeFrame ctl dig => planTubeFrame ctl dig s

/-- The state after the first `k` events of the operation `i` (rule R22); unchanged where it is not accepted. -/
def midway (i : Instr) (k : Nat) (s : State) : State := if s.cmdReady then midPlan (planOf i s) k s else s

/-- `rst` after `k` events of the word's operation (U7): the remaining events are lost, the lines go to their reset
values without an event, the tubes hold any bits (log entry 9). -/
def cutShort (w : PortWord) (k : Nat) (c : Config) (s : State) : Host.Outcome State Fault Refusal :=
  match decode s.cfg.layout w with
  | .ok i => reconstruct c (midway i k s)
  | .error _ => reconstruct c s

end Sys2Proof.Machine
end

