-- ==== Sys2Proof/Machine/Step.lean ====
section
/-! DEFINITION. One step: what the host presents is taken and acted on (rules R60, R61, R68, R190). -/

namespace Sys2Proof.Machine

/-- A presented word, read at the layout in force: performed where it is an admitted operation (rule R61), turned away
by `rejectWord` where it is not (rule R68). -/
def present (w : PortWord) (s : State) : Host.Outcome State Fault Refusal :=
  match decode s.cfg.layout w with
  | .ok i => exec i s
  | .error _ => rejectWord w s

/-- One step of the machine: one input of the host, to completion (rule R50). -/
def step (s : State) : Host.Outcome State Fault Refusal :=
  match fetch s with
  | (.idle, t) => .next t
  | (.present w, t) => present w t
  | (.construct c, t) => reconstruct c t
  | (.cutShort w k c, t) => cutShort w k c t

/-- `s` with the word the host presents next, so that the next step acts on exactly it (log entry 6). -/
def State.withFetchWord (s : State) (nbits w : Nat) : State :=
  { s with input := .present (tableWord nbits w) :: s.input }

end Sys2Proof.Machine
end

