-- ==== Sys2Proof/Safety.lean ====
section
/-! DEFINITION. The terms claims use: what can be read off a trace (rules R8, R47, R112, R116, R207), what the tubes
hold (rules R30, R70), and the invariant of the states between operations. -/

namespace Sys2Proof.Machine

/-! What a trace shows. -/

/-- The data levels presented, in order (rule R47). -/
def Trace.dataLevels (es : List Event) : List Bool :=
  es.filterMap fun e => match e with
    | .data b => some b
    | _ => none

/-- The levels of the brightness events, `DUTY` and `DIAG`, in order (rule R131). -/
def Trace.brightnessLevels (es : List Event) : List Byte :=
  es.filterMap fun e => match e with
    | .duty level => some level
    | .diag level => some level
    | _ => none

/-- The levels driven on the clock line, in order. -/
def Trace.clockLevels (es : List Event) : List Bool :=
  es.filterMap fun e => match e with
    | .clk b => some b
    | _ => none

/-- The levels driven on the latch line, in order. -/
def Trace.latchLevels (es : List Event) : List Bool :=
  es.filterMap fun e => match e with
    | .lat b => some b
    | _ => none

/-- How many rising edges a line makes that starts at `level` and is driven to `levels` in order. -/
def Trace.rises (level : Bool) : List Bool → Nat
  | [] => 0
  | b :: rest => (if b && !level then 1 else 0) + Trace.rises b rest

/-- How many falling edges a line makes that starts at `level` and is driven to `levels` in order. -/
def Trace.falls (level : Bool) : List Bool → Nat
  | [] => 0
  | b :: rest => (if !b && level then 1 else 0) + Trace.falls b rest

/-- How long an event holds the lines under the parameters `c`. -/
def Event.hold (c : Config) : Event → Nat
  | .wait .tBit => c.tBit
  | .wait .tLatch => c.tLatch
  | .data _ => 0
  | .clk _ => 0
  | .lat _ => 0
  | .en _ => 0
  | .duty _ => 0
  | .diag _ => 0

/-- The sum of the holds of a trace (rule R207). -/
def Trace.duration (c : Config) (es : List Event) : Nat := (es.map (Event.hold c)).sum

/-! What the tubes hold. -/

/-- Tube `i` shows the frame `f`: `STORE[16*i + m] = f[m]` for every `m` in 0..15 (rule R30). -/
def State.shows (s : State) (i : Nat) (f : Frame) : Prop :=
  ∀ m, m < 16 → s.store[16 * i + m]? = some (f.word.getLsbD m)

/-! The invariant. -/

/-- What holds between operations, in every state that construction and operations lead to. The clauses about the
block hold where it exists (`init_status` is not 2, rule R23). -/
structure State.Consistent (s : State) : Prop where
  /-- The parameters are in the ranges of rule R5. -/
  parameters : s.cfg.Valid
  /-- No operation is in progress (rules R21, R22). -/
  idle : s.busy = false ∧ s.upc = 0
  /-- The tubes' stages have `16 * NUM_TUBES` bits (rule R30). -/
  stages : s.sr.length = 16 * s.cfg.numTubes ∧ s.store.length = 16 * s.cfg.numTubes
  /-- `InitFatal` comes exactly of lines that are not available (rules R171, R177). -/
  lines : s.initStatus = .initFatal ↔ s.cfg.linesAvailable = false
  /-- The buffer has one entry per tube (rule R12). -/
  buffer : s.initStatus ≠ .initFatal → Memory.wf s.cfg.numTubes s.buf
  /-- The clock line is low (rule R16). -/
  clock : s.initStatus ≠ .initFatal → s.clk = false
  /-- `init_status` and the backend say the same of the PWM strap (rules R19, R23). -/
  strap : s.initStatus ≠ .initFatal →
    (s.backend = .pwm ↔ s.cfg.pwmAvailable = true) ∧ (s.initStatus = .ready ↔ s.cfg.pwmAvailable = true)
  /-- On the DIGITAL backend `duty_level` is the constant 255 (rule R19). -/
  pinned : s.initStatus ≠ .initFatal → s.backend = .digital → s.dutyLevel = 255
  /-- A committed copy is a whole buffer, and it was latched: the latch line idles high (rules R18, R20). -/
  committed : ∀ b, s.committed = some b → Memory.wf s.cfg.numTubes b ∧ s.lat = true
  /-- After `InitFatal` there is no buffer and no committed copy (rule R171). -/
  aborted : s.initStatus = .initFatal → s.buf = [] ∧ s.committed = none

end Sys2Proof.Machine
end

