-- ==== Sys2Proof/Certificates/Slice0/Obligations.lean ====
section
/-! DEFINITION. The statements for the provers, rule by rule. -/

open Sys2Proof Sys2Proof.Machine

/-! nixie_state_encoder (40_encoder.md). -/

/-- Rules R93, R94, R96: the two digit flags and the voltage bit are set exactly on their conditions, in every
layout. -/
def Obligations.ControlByteFlagBits : Prop :=
  ∀ (l : CtlLayout) (t : TubeState), l.Valid →
    (encodeTube l t).ctl.getLsbD l.pD8 = decide (t.digit = .figure 8) ∧
    (encodeTube l t).ctl.getLsbD l.pD9 = decide (t.digit = .figure 9) ∧
    (encodeTube l t).ctl.getLsbD l.pHV = t.voltageEnabled

/-- Rules R73, R95: a colour line the colour selects is 0, one it does not select is 1; the colour bits are `BASE &
~CLEAR(color)`. Which lines a colour selects is the spec's decision D2, the base pattern its decision D3. -/
def Obligations.ControlByteColourBits : Prop :=
  ∀ (l : CtlLayout) (t : TubeState), l.Valid →
    (encodeTube l t).ctl.getLsbD l.pR = decide (t.color ∉ [Color.red, .white, .redBlue, .redGreen]) ∧
    (encodeTube l t).ctl.getLsbD l.pG = decide (t.color ∉ [Color.green, .white, .redGreen, .blueGreen]) ∧
    (encodeTube l t).ctl.getLsbD l.pB = decide (t.color ∉ [Color.blue, .white, .redBlue, .blueGreen]) ∧
    (encodeTube l t).ctl &&& colorMask l = basePattern l &&& ~~~ clearMask l t.color

/-- Rules R91, R99: one-hot at position `digit` for 0..7, zero for 8, 9 and `BLANK`. -/
def Obligations.DigitByteOneHot : Prop :=
  ∀ (l : CtlLayout) (t : TubeState),
    (∀ d : Fin 10, t.digit = .figure d → d.val ≤ 7 →
      (encodeTube l t).dig = 1#8 <<< d.val ∧
      ∀ k : Nat, (encodeTube l t).dig.getLsbD k = decide (k = d.val)) ∧
    (t.digit = .figure 8 ∨ t.digit = .figure 9 ∨ t.digit = .blank → (encodeTube l t).dig = 0)

/-- Rules R97, R98: the comma bit follows the comma (its polarity is the spec's decision D4), the spare bit is
always 0 (decision D3), and neither byte depends on the brightness. -/
def Obligations.CommaBitSpareBitAndBrightness : Prop :=
  ∀ (l : CtlLayout) (t : TubeState) (b : Byte), l.Valid →
    (encodeTube l t).ctl.getLsbD l.pComma = t.comma ∧
    encodeTube l { t with brightness := b } = encodeTube l t ∧
    (encodeTube l t).ctl.getLsbD l.pSpare = false

/-- Rule R100 (the spec derives it from rules R91, R93 and R94): at most one of the ten digit selects is 1, none
exactly for `BLANK`, and a set flag leaves the digit byte 0. -/
def Obligations.DigitSelectExclusive : Prop :=
  ∀ (l : CtlLayout) (t : TubeState), l.Valid →
    ¬ ((encodeTube l t).ctl.getLsbD l.pD8 = true ∧ (encodeTube l t).ctl.getLsbD l.pD9 = true) ∧
    ((encodeTube l t).ctl.getLsbD l.pD8 = true → t.digit = .figure 8) ∧
    ((encodeTube l t).ctl.getLsbD l.pD9 = true → t.digit = .figure 9) ∧
    ((encodeTube l t).ctl.getLsbD l.pD8 = true ∨ (encodeTube l t).ctl.getLsbD l.pD9 = true →
      (encodeTube l t).dig = 0) ∧
    (∀ j k : Nat, (encodeTube l t).dig.getLsbD j = true → (encodeTube l t).dig.getLsbD k = true → j = k) ∧
    ((encodeTube l t).ctl.getLsbD l.pD8 = false ∧ (encodeTube l t).ctl.getLsbD l.pD9 = false ∧
      (encodeTube l t).dig = 0 ↔ t.digit = .blank)

/-- Rule R101 (with the clear masks of the spec's decision D2): two different colours give two different control
bytes. -/
def Obligations.ColoursGiveDistinctControlBytes : Prop :=
  ∀ (l : CtlLayout) (t : TubeState) (c d : Color), l.Valid → c ≠ d →
    (encodeTube l { t with color := c }).ctl ≠ (encodeTube l { t with color := d }).ctl

/-- Rule R102 (the spec derives it from rules R91 to R97 and R71): each named bit depends on its own field only. -/
def Obligations.FrameFieldsIndependent : Prop :=
  ∀ (l : CtlLayout) (t u : TubeState), l.Valid →
    (t.voltageEnabled = u.voltageEnabled →
      (encodeTube l t).ctl.getLsbD l.pHV = (encodeTube l u).ctl.getLsbD l.pHV) ∧
    (t.comma = u.comma →
      (encodeTube l t).ctl.getLsbD l.pComma = (encodeTube l u).ctl.getLsbD l.pComma) ∧
    (t.color = u.color →
      (encodeTube l t).ctl &&& colorMask l = (encodeTube l u).ctl &&& colorMask l) ∧
    (t.digit = u.digit →
      (encodeTube l t).dig = (encodeTube l u).dig ∧
      (encodeTube l t).ctl.getLsbD l.pD8 = (encodeTube l u).ctl.getLsbD l.pD8 ∧
      (encodeTube l t).ctl.getLsbD l.pD9 = (encodeTube l u).ctl.getLsbD l.pD9)

/-- Rule R104 (the spec derives it from rules R98, R100, R101 and R102): the frame determines digit, colour, voltage
and comma, and nothing else enters it. -/
def Obligations.FrameDeterminesVisibleFields : Prop :=
  ∀ (l : CtlLayout) (t u : TubeState), l.Valid →
    ((encodeTube l t).word = (encodeTube l u).word ↔
      t.digit = u.digit ∧ t.color = u.color ∧ t.voltageEnabled = u.voltageEnabled ∧ t.comma = u.comma)

/-- Rule R105: the closed form at the default layout, which is the spec's decision D1 (with D2, D3 and D4). -/
def Obligations.EncodeClosedFormAtDefaultLayout : Prop :=
  (∀ t : TubeState,
    (encodeTube CtlLayout.standard t).ctl =
      (if t.digit = .figure 8 then 0x01#8 else 0) ||| (if t.digit = .figure 9 then 0x02#8 else 0) |||
      (match t.color with
        | .blue => 0x0C#8
        | .green => 0x14#8
        | .red => 0x18#8
        | .white => 0x00#8
        | .redBlue => 0x08#8
        | .redGreen => 0x10#8
        | .blueGreen => 0x04#8) |||
      (if t.voltageEnabled then 0x20#8 else 0) ||| (if t.comma then 0x40#8 else 0) ∧
    (encodeTube CtlLayout.standard t).dig =
      match t.digit with
      | .figure d => if d.val ≤ 7 then 1#8 <<< d.val else 0
      | .blank => 0) ∧
  encodeTube CtlLayout.standard TubeState.dflt = { ctl := 0x20, dig := 0x00 } ∧
  (encodeTube CtlLayout.standard TubeState.dflt).word = 0x2000

/-- Rule R75 (the spec derives it from rules R91 to R97): the frame shapes `ENCODE` never produces. -/
def Obligations.FrameShapesNeverProduced : Prop :=
  ∀ (l : CtlLayout) (t : TubeState) (f : Frame), l.Valid → encodeTube l t = f →
    ¬ (f.ctl.getLsbD l.pD8 = true ∧ f.ctl.getLsbD l.pD9 = true) ∧
    ¬ (f.ctl.getLsbD l.pR = true ∧ f.ctl.getLsbD l.pG = true ∧ f.ctl.getLsbD l.pB = true) ∧
    f.ctl.getLsbD l.pSpare = false ∧
    ¬ (∃ j k : Nat, j ≠ k ∧ f.dig.getLsbD j = true ∧ f.dig.getLsbD k = true) ∧
    ¬ (f.dig ≠ 0 ∧ (f.ctl.getLsbD l.pD8 = true ∨ f.ctl.getLsbD l.pD9 = true))

/-! serial_shift_driver (41_serial_shift.md). -/

/-- Rule R111: `SHIFT_BYTE` completes, with its events in order, the data line driven for every bit even where its
level repeats (the spec's decision D29), and nothing else changed; what the shift stage holds after is
`ShiftByteFeedsTheChain`. -/
def Obligations.ShiftByteCompletes : Prop :=
  ∀ (value : Byte) (s : State), s.cmdReady = true →
    ∃ t, exec (.shiftByte value) s = .next t ∧
      t = { s with
        dat := value.getLsbD 0, clk := false, sr := t.sr
        trace := s.trace ++ [7, 6, 5, 4, 3, 2, 1, 0].flatMap fun k =>
          [Event.data (value.getLsbD k), .wait .tBit, .clk true, .wait .tBit, .clk false, .wait .tBit]
        upc := 0, busy := false }

/-- Rules R30, R112 (the chain model is the spec's environment assumption, decision D19): from a low clock, eight
rising edges; the byte's bits lie in the eight near stages, bit 0 nearest, and the old contents move eight stages
on. -/
def Obligations.ShiftByteFeedsTheChain : Prop :=
  ∀ (value : Byte) (s : State), s.cmdReady = true → s.clk = false →
    ∃ t es, exec (.shiftByte value) s = .next t ∧ t.trace = s.trace ++ es ∧
      t.sr = ((List.range 8).map value.getLsbD ++ s.sr).take s.sr.length ∧
      t.store = s.store ∧ t.clk = false ∧
      Trace.rises s.clk (Trace.clockLevels es) = 8 ∧ Trace.falls s.clk (Trace.clockLevels es) = 8

/-- Rule R113 (the spec derives it from rule R111): 48 events, three line events and three holds for each bit; 96
for a tube's two bytes, said of the frame row, whose meaning is the model's reading (log entry 5, DEDUCED). -/
def Obligations.ShiftByteEmitsFortyEightEvents : Prop :=
  ∀ (value dig : Byte) (s : State), s.cmdReady = true →
    ∃ t es u fs, exec (.shiftByte value) s = .next t ∧ t.trace = s.trace ++ es ∧
      es.length = 48 ∧ es.count (.wait .tBit) = 24 ∧
      (Trace.dataLevels es).length = 8 ∧ (Trace.clockLevels es).length = 16 ∧
      exec (.tubeFrame value dig) s = .next u ∧ u.trace = s.trace ++ fs ∧ fs.length = 96

/-- Rule R114: `LATCH` completes, the tubes capture their shift stage (the chain model of decision D19), and nothing
else changes. -/
def Obligations.LatchCompletes : Prop :=
  ∀ s : State, s.cmdReady = true →
    exec .latch s = .next { s with
      lat := true, store := s.sr, trace := s.trace ++ [.lat false, .wait .tLatch, .lat true], upc := 0, busy := false }

/-- Rule R115: the line is driven low, then high, and no further. Rule R116 (the spec derives it from rules R114 and
R18): one rising edge whatever the line was, and a falling edge exactly where it was high. -/
def Obligations.LatchEdges : Prop :=
  ∀ s : State, s.cmdReady = true →
    ∃ t es, exec .latch s = .next t ∧ t.trace = s.trace ++ es ∧ t.lat = true ∧
      Trace.latchLevels es = [false, true] ∧
      Trace.rises s.lat (Trace.latchLevels es) = 1 ∧
      Trace.falls s.lat (Trace.latchLevels es) = if s.lat then 1 else 0

/-- Rules R44, R90 (the model's reading of the frame row, log entry 5): sending a frame word is sending its control
byte and then its digit byte. -/
def Obligations.TubeFrameIsTwoShiftBytes : Prop :=
  ∀ (ctl dig : Byte) (s : State), s.cmdReady = true →
    ∃ t u, exec (.shiftByte ctl) s = .next t ∧ exec (.shiftByte dig) t = .next u ∧
      exec (.tubeFrame ctl dig) s = .next u ∧
      u = { s with
        dat := dig.getLsbD 0, clk := false, sr := u.sr, trace := s.trace ++ byteEvents ctl ++ byteEvents dig
        upc := 0, busy := false }

/-! brightness_pwm_gate (42_brightness.md). -/

/-- Rule R127: on the PWM backend the level is written and commanded. -/
def Obligations.SetBrightnessOnPwm : Prop :=
  ∀ (level : Byte) (s : State), s.cmdReady = true → s.backend = .pwm →
    exec (.setBrightness level) s =
      .next { s with dutyLevel := level, trace := s.trace ++ [.duty level], upc := 0, busy := false }

/-- Rule R129: on the DIGITAL backend only the diagnostic event is emitted (its form is the spec's decision D17). -/
def Obligations.SetBrightnessOnDigital : Prop :=
  ∀ (level : Byte) (s : State), s.cmdReady = true → s.backend = .digital →
    exec (.setBrightness level) s =
      .next { s with trace := s.trace ++ [.diag level], upc := 0, busy := false }

/-- Rule R128: the duty fraction is `level / 255`, exact (the spec's decision D12), from 0 to 1, monotone and
injective. -/
def Obligations.DutyFractionLinear : Prop :=
  dutyFraction 0 = 0 ∧ dutyFraction 255 = 1 ∧
  (∀ a : Byte, 0 ≤ dutyFraction a ∧ dutyFraction a ≤ 1 ∧ dutyFraction a * 255 = a.toNat) ∧
  (∀ a b : Byte, a.toNat ≤ b.toNat ↔ dutyFraction a ≤ dutyFraction b) ∧
  (∀ a b : Byte, dutyFraction a = dutyFraction b → a = b)

/-- Rules R129, R172: on the DIGITAL backend no instruction moves the duty or drives the enable line. -/
def Obligations.DigitalBackendNeverDims : Prop :=
  ∀ (i : Instr) (s t : State), s.backend = .digital → exec i s = .next t →
    t.dutyLevel = s.dutyLevel ∧ t.backend = .digital ∧
    ∃ es, t.trace = s.trace ++ es ∧ ∀ e ∈ es, (∀ level, e ≠ .duty level) ∧ ∀ b, e ≠ .en b

/-! Buffer operations (43_display_manager.md, 20_memory.md). -/

/-- Rules R43, R140: an index in range has its whole entry overwritten, and nothing else changes. -/
def Obligations.SetTubeWritesOneEntry : Prop :=
  ∀ (index : Nat) (d : Digit) (c : Color) (v m : Bool) (b : Byte) (s : State),
    s.cmdReady = true → Memory.wf s.cfg.numTubes s.buf → index < s.cfg.numTubes →
    ∃ t, exec (.setTube index d c v m b) s = .next t ∧
      t = { s with buf := t.buf, upc := 0, busy := false } ∧
      t.buf.length = s.buf.length ∧
      t.buf[index]? =
        some { digit := d, color := c, voltageEnabled := v, comma := m, brightness := b } ∧
      ∀ j, j ≠ index → t.buf[j]? = s.buf[j]?

/-- Rule R141: an index out of range changes nothing at all. -/
def Obligations.SetTubeOutOfRangeAbsorbed : Prop :=
  ∀ (index : Nat) (d : Digit) (c : Color) (v m : Bool) (b : Byte) (s : State),
    s.cmdReady = true → s.upc = 0 → s.cfg.numTubes ≤ index →
    exec (.setTube index d c v m b) s = .next s

/-- Rules R143 to R146, R149: every entry holds the digit of its weight of the base-10 numeral of the magnitude (one
digit 0 for zero), beyond the numeral 0 or `BLANK`, in the given colour and brightness, voltage on, no comma;
nothing else changes. The numeral of zero is the spec's decision D14, voltage and comma its decision D15. -/
def Obligations.SetNumberWritesTheNumeral : Prop :=
  ∀ (value : Int) (c : Color) (z : Bool) (b : Byte) (s : State) (numeral : List Nat),
    s.cmdReady = true →
    numeral = (if value.natAbs = 0 then [0] else Nat.digits 10 value.natAbs) →
    ∃ t, exec (.setNumber value c z b) s = .next t ∧
      t = { s with buf := t.buf, upc := 0, busy := false } ∧
      t.buf.length = s.cfg.numTubes ∧
      ∀ i, i < s.cfg.numTubes → t.buf[i]? = some
        { digit :=
            if i < numeral.length then .figure (Fin.ofNat 10 (numeral.getD i 0))
            else if z then .figure 0 else .blank
          color := c, voltageEnabled := true, comma := false, brightness := b }

/-- Rule R147: the sign is dropped. -/
def Obligations.SetNumberDropsTheSign : Prop :=
  ∀ (value : Int) (c : Color) (z : Bool) (b : Byte) (s : State),
    exec (.setNumber (-value) c z b) s = exec (.setNumber value c z b) s

/-- Rule R148: a number too long for the chain shows its low digits, with their zeros. -/
def Obligations.SetNumberKeepsLowDigits : Prop :=
  ∀ (value : Int) (c : Color) (z : Bool) (b : Byte) (s : State), 10 ^ s.cfg.numTubes ≤ value.natAbs →
    exec (.setNumber value c z b) s =
      exec (.setNumber ((value.natAbs % 10 ^ s.cfg.numTubes : Nat) : Int) c true b) s

/-! The render (43_display_manager.md, 20_memory.md, 42_brightness.md). -/

/-- Rule R150: a render completes, writes the committed copy (the ghost of the spec's decision D18), leaves the
latch line high, and changes nothing but the lines, the duty, the tubes and the trace; `RenderSendsTheTubesInOrder`
says what the trace is. -/
def Obligations.RenderCompletes : Prop :=
  ∀ s : State, s.cmdReady = true → Memory.wf s.cfg.numTubes s.buf →
    ∃ t, exec .render s = .next t ∧
      t = { s with
        clk := t.clk, dat := t.dat, lat := true, dutyLevel := t.dutyLevel, sr := t.sr, store := t.store
        committed := some s.buf, trace := t.trace, upc := 0, busy := false } ∧
      (s.clk = false → t.clk = false)

/-- Rules R44, R46, R150: the tubes are sent from the last index down to 0, and of each tube, after its brightness
event (on DIGITAL the diagnostic of the spec's decision D17), the control byte first and the digit byte second; one
latch follows the last. Every drive of a line is an event, also where its level repeats (decision D29). -/
def Obligations.RenderSendsTheTubesInOrder : Prop :=
  ∀ s : State, s.cmdReady = true → Memory.wf s.cfg.numTubes s.buf →
    ∃ t, exec .render s = .next t ∧
      t.trace = s.trace ++
          ((List.range s.cfg.numTubes).reverse.flatMap fun i =>
            (s.buf[i]?.toList.flatMap fun x =>
              (if s.backend = .pwm then Event.duty x.brightness else .diag x.brightness) ::
                (byteEvents (encodeTube s.cfg.layout x).ctl ++ byteEvents (encodeTube s.cfg.layout x).dig))) ++
          [.lat false, .wait .tLatch, .lat true]

/-- Rule R47: where every bit of every tube's frame stands in the bit stream of a render, and where it ends in the
shift stage (the spec derives it from rules R44 to R46; the chain model is its decision D19). -/
def Obligations.RenderWireOrder : Prop :=
  ∀ s : State, s.cmdReady = true → s.Consistent →
    ∃ t es, exec .render s = .next t ∧ t.trace = s.trace ++ es ∧
      (Trace.dataLevels es).length = 16 * s.cfg.numTubes ∧
      Trace.rises s.clk (Trace.clockLevels es) = 16 * s.cfg.numTubes ∧
      ∀ i x, s.buf[i]? = some x → ∀ j, j < 16 →
        (Trace.dataLevels es)[16 * (s.cfg.numTubes - 1 - i) + j]? =
          some (if j ≤ 7 then (encodeTube s.cfg.layout x).ctl.getLsbD (7 - j)
            else (encodeTube s.cfg.layout x).dig.getLsbD (15 - j)) ∧
        (Trace.dataLevels es)[16 * (s.cfg.numTubes - 1 - i) + j]? =
          some ((encodeTube s.cfg.layout x).word.getLsbD (15 - j)) ∧
        t.sr[16 * i + j]? = some ((encodeTube s.cfg.layout x).word.getLsbD j)

/-- Rule R153 (the spec derives it from rules R150, R47, R112, R116 and R131, on the chain model of decision D19):
whatever the tubes held before, after a render every tube shows the frame of its entry, put there by the one latch
edge; the lines, the duty and the committed copy are as the rule says. -/
def Obligations.RenderShowsTheBuffer : Prop :=
  ∀ s : State, s.cmdReady = true → s.Consistent →
    ∃ t es, exec .render s = .next t ∧ t.trace = s.trace ++ es ∧
      (∀ i x, s.buf[i]? = some x → t.shows i (encodeTube s.cfg.layout x)) ∧
      Trace.dataLevels es = s.buf.reverse.flatMap (fun x =>
        (List.range 16).map fun j => (encodeTube s.cfg.layout x).word.getLsbD (15 - j)) ∧
      Trace.rises s.lat (Trace.latchLevels es) = 1 ∧ es.getLast? = some (.lat true) ∧
      t.clk = false ∧ t.lat = true ∧
      (∀ x, s.buf[0]? = some x →
        t.dat = (encodeTube s.cfg.layout x).dig.getLsbD 0 ∧ t.dat = decide (x.digit = .figure 0) ∧
        (s.backend = .pwm → t.dutyLevel = x.brightness)) ∧
      (s.backend = .digital → t.dutyLevel = 255) ∧
      t.buf = s.buf ∧ t.committed = some t.buf

/-- Rule R152 (the spec derives it from rules R150, R113, R116 and R126): the counts of a render. -/
def Obligations.RenderCounts : Prop :=
  ∀ s : State, s.cmdReady = true → Memory.wf s.cfg.numTubes s.buf → s.clk = false →
    ∃ t es, exec .render s = .next t ∧ t.trace = s.trace ++ es ∧
      es.length = 97 * s.cfg.numTubes + 3 ∧
      Trace.rises s.clk (Trace.clockLevels es) = 16 * s.cfg.numTubes ∧
      Trace.rises s.lat (Trace.latchLevels es) = 1 ∧ es.getLast? = some (.lat true) ∧
      (Trace.brightnessLevels es).length = s.cfg.numTubes

/-- Rule R154: the events of a render are a function of the buffer, the backend, `NUM_TUBES` and the layout; a
second render emits the same again. -/
def Obligations.RenderEventsDependOnBufferOnly : Prop :=
  ∀ s u : State, s.cmdReady = true → u.cmdReady = true → u.buf = s.buf → u.backend = s.backend →
    u.cfg.numTubes = s.cfg.numTubes → u.cfg.layout = s.cfg.layout →
    ∃ es s' u' s'', exec .render s = .next s' ∧ exec .render u = .next u' ∧
      s'.trace = s.trace ++ es ∧ u'.trace = u.trace ++ es ∧
      exec .render s' = .next s'' ∧ s''.trace = s'.trace ++ es

/-- Rules R13, R131: one brightness event a tube, last index first, and the duty left is that of tube 0 on PWM,
unchanged on DIGITAL. -/
def Obligations.RenderBrightnessLastWriteWins : Prop :=
  ∀ s : State, s.cmdReady = true →
    ∃ t es, exec .render s = .next t ∧ t.trace = s.trace ++ es ∧
      Trace.brightnessLevels es = (s.buf.map (·.brightness)).reverse ∧
      (∀ x, s.buf[0]? = some x → s.backend = .pwm → t.dutyLevel = x.brightness) ∧
      (s.backend = .digital → t.dutyLevel = s.dutyLevel)

/-- Rule R155: `CLEAR` resets every entry and renders the result; on PWM the duty is then 0. -/
def Obligations.ClearCompletes : Prop :=
  ∀ s : State, s.cmdReady = true → 1 ≤ s.cfg.numTubes →
    ∃ t, exec .clear s = .next t ∧
      exec .render { s with buf := List.replicate s.cfg.numTubes TubeState.dflt } = .next t ∧
      t.buf = List.replicate s.cfg.numTubes
        { digit := .blank, color := .white, voltageEnabled := true, comma := false, brightness := 0 } ∧
      t.committed = some t.buf ∧ (s.backend = .pwm → t.dutyLevel = 0) ∧
      (s.backend = .digital → t.dutyLevel = s.dutyLevel) ∧
      t = { s with
        buf := t.buf, clk := t.clk, dat := t.dat, lat := true, dutyLevel := t.dutyLevel, sr := t.sr, store := t.store
        committed := t.committed, trace := t.trace, upc := 0, busy := false }

/-- Rule R207 (information only in the spec; the durations are its decision D13): how long the operations hold the
lines, as sums of the named holds. -/
def Obligations.OperationDurations : Prop :=
  ∀ s : State, s.cmdReady = true → Memory.wf s.cfg.numTubes s.buf →
    (∃ t es, exec .render s = .next t ∧ t.trace = s.trace ++ es ∧
      Trace.duration s.cfg es = s.cfg.numTubes * 48 * s.cfg.tBit + s.cfg.tLatch) ∧
    (∃ t es, exec .clear s = .next t ∧ t.trace = s.trace ++ es ∧
      Trace.duration s.cfg es = s.cfg.numTubes * 48 * s.cfg.tBit + s.cfg.tLatch) ∧
    (∀ value, ∃ t es, exec (.shiftByte value) s = .next t ∧ t.trace = s.trace ++ es ∧
      Trace.duration s.cfg es = 24 * s.cfg.tBit) ∧
    (∃ t es, exec .latch s = .next t ∧ t.trace = s.trace ++ es ∧ Trace.duration s.cfg es = s.cfg.tLatch)

/-! Rules about the whole machine. -/

/-- Rule R12: only `SET_TUBE`, `SET_NUMBER` and `CLEAR` write the buffer. -/
def Obligations.OnlySettersWriteTheBuffer : Prop :=
  ∀ (i : Instr) (s t : State), exec i s = .next t →
    (∀ index d c v m b, i ≠ .setTube index d c v m b) → (∀ n c z b, i ≠ .setNumber n c z b) → i ≠ .clear →
    t.buf = s.buf

/-- Rules R20, R156 (the ghost copy is the spec's decision D18): `RENDER` and `CLEAR` leave the buffer committed,
and nothing else writes the committed copy. -/
def Obligations.OnlyRendersCommit : Prop :=
  ∀ (i : Instr) (s t : State), s.cmdReady = true → exec i s = .next t →
    (i = .render ∨ i = .clear → t.isCommitted = true) ∧
    (i ≠ .render → i ≠ .clear → t.committed = s.committed)

/-- Rule R52: what the tubes show changes only with an operation that latches. -/
def Obligations.OnlyLatchesChangeTheDisplay : Prop :=
  ∀ (i : Instr) (s t : State), exec i s = .next t → i ≠ .latch → i ≠ .render → i ≠ .clear →
    t.store = s.store ∧ t.lat = s.lat

/-- Rules R16, R18, R112: operations leave the clock low where they find it low, and the latch line high where they
latch. -/
def Obligations.LinesAtRestBetweenOperations : Prop :=
  ∀ (i : Instr) (s t : State), s.cmdReady = true → exec i s = .next t →
    (s.clk = false → t.clk = false) ∧ (i = .latch ∨ i = .render ∨ i = .clear → t.lat = true)

/-- Rule R174: no operation ever raises anything: each answers a next state. -/
def Obligations.OperationsNeverRaise : Prop :=
  ∀ (i : Instr) (s : State), ∃ t, exec i s = .next t

/-- Rules R5, R19, R21, R22, R23: no operation changes the parameters, the backend or `init_status`, and each ends
idle (`busy` and `upc` are the spec's decisions D9 and D20, `init_status` its decision D24). -/
def Obligations.OperationsKeepTheConstruction : Prop :=
  ∀ (i : Instr) (s t : State), s.cmdReady = true → exec i s = .next t →
    t.cfg = s.cfg ∧ t.backend = s.backend ∧ t.initStatus = s.initStatus ∧ t.busy = false ∧ t.upc = 0

/-- Rule R22: an operation is its events emitted one at a time, `upc` counting those already emitted, at most `97 *
NUM_TUBES + 3` of them; performing it as one step is the same (the spec's decision D20). -/
def Obligations.OperationIsItsEventsOneByOne : Prop :=
  ∀ (i : Instr) (s : State), s.cmdReady = true →
    (∀ k, k ≤ (planOf i s).events.length →
      (midway i k s).busy = true ∧ (midway i k s).upc = k ∧
      (midway i k s).trace = s.trace ++ (planOf i s).events.take k) ∧
    (∀ k e, (planOf i s).events[k]? = some e → midway i (k + 1) s = emit e (midway i k s)) ∧
    (∃ t, exec i s = .next t ∧ t.upc = 0 ∧ t.busy = false ∧
      t = endPlan (planOf i s) (midway i (planOf i s).events.length s)) ∧
    (s.Consistent → (planOf i s).events.length ≤ 97 * s.cfg.numTubes + 3)

/-! The command port (30_encoding.md). -/

/-- Rule R64 (the packed word is the spec's decision D7) and the frame row: decoding the encoding of a well-formed
instruction gives it back, whatever the layout. -/
def Obligations.DecodeAfterEncode : Prop :=
  ∀ (l : CtlLayout) (i : Instr), i.wf l = true → decode l (encode i) = .ok i

/-- Rules R63, R64, R68 (the spec's decisions D7, D8): an admitted word is the encoding of what it decodes to, which
is well formed. -/
def Obligations.EncodeAfterDecode : Prop :=
  ∀ (l : CtlLayout) (w : PortWord) (i : Instr), decode l w = .ok i → i.wf l = true ∧ encode i = w

/-- Rule R64 (the spec's decision D7): no word selects two rows. -/
def Obligations.CommandRowsDisjoint : Prop :=
  ∀ (w : CommandWord) (r q : CommandRow), r ∈ commandRows → q ∈ commandRows →
    r.selects w = true → q.selects w = true → r = q

/-- Rule R68 (the spec's decision D8): exactly the admitted words decode. -/
def Obligations.AdmittedWordsDecode : Prop :=
  ∀ w : CommandWord, (∃ i, decodeCommand w = .ok i) ↔
    (w &&& 0xFF00000000007F00 = 0x0100000000000000 ∧
      ((w.extractLsb' 20 4).toNat ≤ 9 ∨ (w.extractLsb' 20 4).toNat = 15) ∧ (w.extractLsb' 17 3).toNat ≠ 0) ∨
    (w &&& 0xFF00000000F0FF00 = 0x0200000000000000 ∧ (w.extractLsb' 17 3).toNat ≠ 0) ∨
    w = 0x0300000000000000 ∨ w = 0x0400000000000000 ∨
    w &&& 0xFFFFFFFFFFFFFF00 = 0x0500000000000000 ∨ w &&& 0xFFFFFFFFFFFFFF00 = 0x0600000000000000 ∨
    w = 0x0700000000000000

/-- The sixteen words of section 2.6 of 95_test_vectors.md decode to their operations (by the spec's decisions D5 to
D8), its eight invalid words do not decode; and frame 0x6D00, vector V6 of section 2.1, decodes on the frame path,
which is the model's (log entry 5). -/
def Obligations.SampleWordsDecode : Prop :=
  (decodeTableWord 64 0x01000000007700C8 = some (.setTube 0 (.figure 7) .red true false 200) ∧
    decodeTableWord 64 0x0100000001838064 = some (.setTube 1 (.figure 8) .blue true true 100) ∧
    decodeTableWord 64 0x0100000002570009 = some (.setTube 2 (.figure 5) .red true false 9) ∧
    decodeTableWord 64 0x0100000000F90000 = some (.setTube 0 .blank .white true false 0) ∧
    decodeTableWord 64 0x01FFFFFFFF020000 = some (.setTube 4294967295 (.figure 0) .blue false false 0)) ∧
  (decodeTableWord 64 0x02000000890400FF = some (.setNumber 137 .green false 255) ∧
    decodeTableWord 64 0x020000002A0400C8 = some (.setNumber 42 .green false 200) ∧
    decodeTableWord 64 0x02FFFFFFF9090032 = some (.setNumber (-7) .white true 50) ∧
    decodeTableWord 64 0x0200000007090032 = some (.setNumber 7 .white true 50) ∧
    decodeTableWord 64 0x0200000000060001 = some (.setNumber 0 .red false 1) ∧
    decodeTableWord 64 0x0280000000060001 = some (.setNumber (-2147483648) .red false 1)) ∧
  (decodeTableWord 64 0x0300000000000000 = some .render ∧
    decodeTableWord 64 0x0400000000000000 = some .clear ∧
    decodeTableWord 64 0x0500000000000033 = some (.setBrightness 51) ∧
    decodeTableWord 64 0x06000000000000A5 = some (.shiftByte 0xA5) ∧
    decodeTableWord 64 0x0700000000000000 = some .latch) ∧
  (decodeTableWord 64 0x0000000000000000 = none ∧ decodeTableWord 64 0x0800000000000000 = none ∧
    decodeTableWord 64 0x0300000000000001 = none ∧ decodeTableWord 64 0x01000000007701C8 = none ∧
    decodeTableWord 64 0x0100000000A60000 = none ∧ decodeTableWord 64 0x0100000000900000 = none ∧
    decodeTableWord 64 0x0200000000000001 = none ∧ decodeTableWord 64 0x0200000000160001 = none) ∧
  decodeTableWord 16 0x6D00 = some (.tubeFrame 0x6D 0x00)

/-- Rules R60, R61 (the port is the spec's decision D7, the list of inputs the model's, log entry 6): a step
performs the operation of the word presented to it, and takes the word from the host's list; the invalid strobe is
low again. -/
def Obligations.StepPerformsThePresentedWord : Prop :=
  ∀ (s : State) (w : PortWord) (rest : List HostInput) (i : Instr),
    s.input = .present w :: rest → decode s.cfg.layout w = .ok i →
    step s = exec i { s with input := rest, cmdInvalid := false }

/-- Rule R68 (the hardware's reaction, log entry 7): an invalid word changes nothing but the `cmd_invalid` strobe.
-/
def Obligations.StepAbsorbsAnInvalidWord : Prop :=
  ∀ (s : State) (w : CommandWord) (rest : List HostInput) (e : DecodeError), s.cmdReady = true →
    s.input = .present (.command w) :: rest → decodeCommand w = .error e →
    step s = .next { s with input := rest, cmdInvalid := true }

/-- Rule R61 (the spec's decision D9; log entry 6): while `cmd_ready` is 0 no operation is accepted: none has an
effect, and a presented command word only leaves the host's list. -/
def Obligations.NothingAcceptedWhileNotReady : Prop :=
  ∀ s : State, s.cmdReady = false →
    (∀ i, exec i s = .next s) ∧
    ∀ w rest, s.input = .present (.command w) :: rest →
      step s = .next { s with input := rest, cmdInvalid := false }

/-- With nothing presented the block is idle, its lines held (rule R185). -/
def Obligations.IdleStepHoldsTheLines : Prop :=
  ∀ s : State,
    (s.input = [] → step s = .next { s with cmdInvalid := false }) ∧
    ∀ rest, s.input = .idle :: rest → step s = .next { s with input := rest, cmdInvalid := false }

/-! Construction (70_reset_and_hazards.md, 60_exceptions.md, 10_state.md). -/

/-- Rules R25, R125, R190 (the order and the line levels are the spec's decisions D10, D11 and D23): what `rst`
leaves where the lines are available; the free contents of the tubes have the chain's length (log entry 4). -/
def Obligations.ConstructionResult : Prop :=
  ∀ (s : State) (c : Config) (rest : List HostInput),
    s.input = .construct c :: rest → c.Valid → c.linesAvailable = true →
    ∃ t, step s = .next t ∧
      t.sr.length = 16 * c.numTubes ∧ t.store.length = 16 * c.numTubes ∧
      t = { cfg := c
            buf := List.replicate c.numTubes
              { digit := .blank, color := .white, voltageEnabled := true, comma := false, brightness := 0 }
            clk := false, dat := false, lat := c.latchResetLevel
            backend := if c.pwmAvailable then .pwm else .digital
            dutyLevel := 255, committed := none, busy := false, upc := 0
            initStatus := if c.pwmAvailable then .ready else .degraded
            cmdInvalid := false, sr := t.sr, store := t.store
            trace := s.trace ++ [if c.pwmAvailable then .duty 255 else .en true]
            input := rest, freeCtr := t.freeCtr }

/-- Rules R171, R177: where the lines are not available construction aborts: `init_status` is 2, no event is emitted
whatever the PWM strap says, and no operation is ever accepted. -/
def Obligations.InitFatalAcceptsNothing : Prop :=
  ∀ (s : State) (c : Config) (rest : List HostInput),
    s.input = .construct c :: rest → c.Valid → c.linesAvailable = false →
    ∃ t, step s = .next t ∧ (ports t).initStatus = 2 ∧ (ports t).cmdReady = false ∧ t.trace = s.trace ∧
      t.buf = [] ∧ t.committed = none ∧ t.input = rest ∧ ∀ i, exec i t = .next t

/-- U7 (log entry 9): `rst` after `k` events of an operation: those events and the construction event are the whole
trace of it, the lines have their reset values, and the buffer is at its defaults. -/
def Obligations.ResetCutsAnOperationShort : Prop :=
  ∀ (s : State) (w : PortWord) (k : Nat) (c : Config) (rest : List HostInput) (i : Instr),
    s.input = .cutShort w k c :: rest → s.cmdReady = true → decode s.cfg.layout w = .ok i → c.Valid →
    c.linesAvailable = true →
    ∃ t, step s = .next t ∧
      t.trace = s.trace ++ (planOf i s).events.take k ++ [if c.pwmAvailable then .duty 255 else .en true] ∧
      t.clk = false ∧ t.dat = false ∧ t.lat = c.latchResetLevel ∧ t.dutyLevel = 255 ∧
      t.buf = List.replicate c.numTubes TubeState.dflt ∧ t.committed = none ∧ t.busy = false ∧ t.upc = 0 ∧
      t.cfg = c ∧ t.input = rest

/-- The model's own refusals (rule R5 gives the ranges; log entries 10 and 5): parameters out of range, and a frame
word with the spare bit of the layout in force set. -/
def Obligations.StepRefusals : Prop :=
  (∀ (s : State) (c : Config) (rest : List HostInput), s.input = .construct c :: rest → ¬ c.Valid →
    step s = .refused .parametersOutOfRange) ∧
  (∀ (s : State) (w : FrameWord) (rest : List HostInput), s.input = .present (.frame w) :: rest →
    w.getLsbD (8 + s.cfg.layout.pSpare) = true → step s = .refused .frameOutsideTable)

/-- Rule R25: the state after reset has the values the rule gives (`clk` and `dat` are the spec's decision D10) and is
what construction leaves with the parameters of `Config.launch`
(log entries 2, 3 and 4). -/
def Obligations.ResetIsAConstruction : Prop :=
  construct Config.launch { State.reset with trace := [], freeCtr := 0 } = State.reset ∧
  (∀ t ∈ State.reset.buf, t =
    { digit := .blank, color := .white, voltageEnabled := true, comma := false, brightness := 0 }) ∧
  State.reset.clk = false ∧ State.reset.dat = false ∧ State.reset.dutyLevel = 255 ∧
  State.reset.committed = none ∧ State.reset.busy = false ∧ State.reset.upc = 0 ∧ State.reset.trace = [.duty 255]

/-- The invariant holds after reset. -/
def Obligations.ResetIsConsistent : Prop := State.reset.Consistent

/-- Every step keeps the invariant, from every state that meets it. -/
def Obligations.StepKeepsConsistent : Prop :=
  ∀ s t : State, s.Consistent → step s = .next t → t.Consistent

/-! Frames at every layout (30_encoding.md Part B). -/

/-- Rules R70, R74 (the frame path is the model's, log entry 5): in every layout the frame of every tube state is
admitted on the frame path, and the step sends its control byte and its digit byte. -/
def Obligations.EveryTubeFrameRuns : Prop :=
  ∀ (s : State) (x : TubeState) (rest : List HostInput), s.cfg.layout.Valid →
    s.input = .present (.frame (encodeTube s.cfg.layout x).word) :: rest →
    decode s.cfg.layout (.frame (encodeTube s.cfg.layout x).word) =
      .ok (.tubeFrame (encodeTube s.cfg.layout x).ctl (encodeTube s.cfg.layout x).dig) ∧
    ∃ t, step s = .next t ∧
      (s.cmdReady = true → t.trace = s.trace ++
        byteEvents (encodeTube s.cfg.layout x).ctl ++ byteEvents (encodeTube s.cfg.layout x).dig)
end

