-- ==== Sys2Proof/Laws/Decode.lean ====
section
/-! SUPPORT. What each field of a packed command word reads as, how a word is put together from its fields, and the
codes of digits and colours read back (rules R64 to R66, R70). -/

namespace Sys2Proof

section
variable (op : BitVec 8) (wide : BitVec 32) (digit : BitVec 4) (color : BitVec 3) (b16 b15 : Bool) (low : Byte)

@[simp] theorem opcodeField_pack : opcodeField (packCommand op wide digit color b16 b15 low) = op := by
  simp only [opcodeField, packCommand]
  ext i hi
  simp only [BitVec.getElem_extractLsb', BitVec.getLsbD_append]
  grind

@[simp] theorem wideField_pack : wideField (packCommand op wide digit color b16 b15 low) = wide := by
  simp only [wideField, packCommand]
  ext i hi
  simp only [BitVec.getElem_extractLsb', BitVec.getLsbD_append]
  grind

@[simp] theorem digitField_pack : digitField (packCommand op wide digit color b16 b15 low) = digit := by
  simp only [digitField, packCommand]
  ext i hi
  simp only [BitVec.getElem_extractLsb', BitVec.getLsbD_append]
  grind

@[simp] theorem colorField_pack : colorField (packCommand op wide digit color b16 b15 low) = color := by
  simp only [colorField, packCommand]
  ext i hi
  simp only [BitVec.getElem_extractLsb', BitVec.getLsbD_append]
  grind

@[simp] theorem byteField_pack : byteField (packCommand op wide digit color b16 b15 low) = low := by
  simp only [byteField, packCommand]
  ext i hi
  simp only [BitVec.getElem_extractLsb', BitVec.getLsbD_append]
  grind

@[simp] theorem bit16Field_pack : bit16Field (packCommand op wide digit color b16 b15 low) = b16 := by
  simp only [bit16Field, packCommand, BitVec.getLsbD_append, BitVec.getLsbD_ofBool]
  simp

@[simp] theorem commaField_pack : commaField (packCommand op wide digit color b16 b15 low) = b15 := by
  simp only [commaField, packCommand, BitVec.getLsbD_append, BitVec.getLsbD_ofBool]
  simp

end

/-- A word is its fields, the bits 14:8 (reserved in every row of rule R64) among them. -/
theorem commandWord_eq_fields (w : CommandWord) :
    w = opcodeField w ++ wideField w ++ digitField w ++ colorField w ++ BitVec.ofBool (bit16Field w) ++
      BitVec.ofBool (commaField w) ++ w.extractLsb' 8 7 ++ byteField w := by
  apply BitVec.eq_of_getLsbD_eq
  intro i hi
  simp only [opcodeField, wideField, digitField, colorField, bit16Field, commaField, byteField,
    BitVec.getLsbD_append, BitVec.getLsbD_extractLsb', BitVec.getLsbD_ofBool]
  grind

theorem decodeDigit_encodeDigit (d : Digit) : decodeDigit (encodeDigit d) = some d := by
  cases d with
  | blank => decide
  | figure d => revert d; decide

theorem decodeColor_encodeColor (c : Color) : decodeColor (encodeColor c) = some c := by cases c <;> decide

theorem frameWord_ctl (f : Frame) : f.word.extractLsb' 8 8 = f.ctl := by
  ext i hi
  simp only [Frame.word, BitVec.getElem_extractLsb', BitVec.getLsbD_append]
  grind

theorem frameWord_dig (f : Frame) : f.word.extractLsb' 0 8 = f.dig := by
  ext i hi
  simp only [Frame.word, BitVec.getElem_extractLsb', BitVec.getLsbD_append]
  grind

/-- Bit `j` of the digit byte is bit `j` of the frame. -/
theorem frameWord_low (f : Frame) {j : Nat} (h : j < 8) : f.word.getLsbD j = f.dig.getLsbD j := by
  simp only [Frame.word, BitVec.getLsbD_append]
  simp [h]

/-- Bit `j` of the control byte is bit `8 + j` of the frame. -/
theorem frameWord_high (f : Frame) (j : Nat) : f.word.getLsbD (8 + j) = f.ctl.getLsbD j := by
  simp only [Frame.word, BitVec.getLsbD_append]
  simp

/-- A frame word decodes to its two bytes, unless its control byte has the spare bit of the layout set. -/
theorem decodeFrame_word (l : CtlLayout) (f : Frame) :
    decodeFrame l f.word = if f.ctl.getLsbD l.pSpare then .error .spareBitSet else .ok (.tubeFrame f.ctl f.dig) := by
  simp only [decodeFrame, frameWord_high, frameWord_ctl, frameWord_dig]

end Sys2Proof
end

