-- ==== Sys2Proof/Laws/Encoder.lean ====
section
/-! SUPPORT. The bits of the control byte, one formula for each (rules R73, R74, R90). -/

namespace Sys2Proof.Machine

theorem bitMask_bit (p q : Fin 8) : (bitMask p).getLsbD q.val = decide (p = q) := by revert p q; decide

theorem setWhen_bit (c : Bool) (p q : Fin 8) (x : Byte) :
    (setWhen c (bitMask p) x).getLsbD q.val = (x.getLsbD q.val || (c && decide (p = q))) := by
  cases c
  · simp [setWhen]
  · simp only [setWhen, if_true, BitVec.getLsbD_or, bitMask_bit, Bool.true_and]

/-- Which bits a colour clears, by the lines its name is made of (rule R73). -/
theorem clearMask_bit (l : CtlLayout) (c : Color) (q : Fin 8) :
    (clearMask l c).getLsbD q.val =
      ((decide (c ∈ [Color.red, .white, .redBlue, .redGreen]) && decide (l.pR = q)) ||
       (decide (c ∈ [Color.green, .white, .redGreen, .blueGreen]) && decide (l.pG = q)) ||
       (decide (c ∈ [Color.blue, .white, .redBlue, .blueGreen]) && decide (l.pB = q))) := by
  cases c <;> simp only [clearMask, BitVec.getLsbD_or, bitMask_bit] <;> simp
  all_goals grind

/-- Every bit of the control byte. -/
theorem controlByte_bit (l : CtlLayout) (t : TubeState) (q : Fin 8) :
    (controlByte l t).getLsbD q.val =
      (((((decide (l.pR = q) || decide (l.pG = q) || decide (l.pB = q)) ||
        (decide (t.digit = .figure 8) && decide (l.pD8 = q))) ||
        (decide (t.digit = .figure 9) && decide (l.pD9 = q))) && !(clearMask l t.color).getLsbD q.val) ||
        (t.voltageEnabled && decide (l.pHV = q)) || (t.comma && decide (l.pComma = q))) := by
  simp only [controlByte, setWhen_bit, clearColor, BitVec.getLsbD_and, BitVec.getLsbD_not, basePattern, colorMask,
    BitVec.getLsbD_or, bitMask_bit]
  simp [beq_eq_decide]

end Sys2Proof.Machine
end

