-- ==== Sys2Proof/Laws/Operands.lean ====
section
/-! SUPPORT. The number of decimal digits is that of the base-10 numeral (rules R143, R144). -/

namespace Sys2Proof.Machine

theorem decimalLengthFuel_eq (fuel m : Nat) (h : m < 10 ^ (fuel + 1)) :
    decimalLengthFuel fuel m = if m = 0 then 1 else (Nat.digits 10 m).length := by
  induction fuel generalizing m with
  | zero =>
    have hm : m < 10 := by simpa using h
    by_cases h0 : m = 0
    · simp [decimalLengthFuel, h0]
    · simp [decimalLengthFuel, h0, Nat.digits_of_lt 10 m h0 hm]
  | succ fuel ih =>
    rw [decimalLengthFuel]
    by_cases hm : m < 10
    · by_cases h0 : m = 0
      · simp [h0]
      · simp [hm, h0]
    · have hq : m / 10 < 10 ^ (fuel + 1) := by
        rw [Nat.div_lt_iff_lt_mul (by omega)]
        rwa [pow_succ] at h
      rw [if_neg hm, ih _ hq, if_neg (by omega), if_neg (by omega),
        Nat.digits_def' (by omega) (by omega : 0 < m)]
      simp

theorem decimalLength_eq (m : Nat) : decimalLength m = if m = 0 then 1 else (Nat.digits 10 m).length :=
  decimalLengthFuel_eq _ _ (Nat.lt_log2_self.trans_le (Nat.pow_le_pow_left (by omega) _))

end Sys2Proof.Machine
end

