-- ==== Sys2Proof/Laws/State.lean ====
section
/-! SUPPORT. One lemma per field per state update: emitting an event, beginning and ending an operation, taking the
host's input, construction. -/

namespace Sys2Proof.Machine

/-! `emit`: the fields no event touches. -/

@[simp] theorem emit_cfg (e : Event) (s : State) : (emit e s).cfg = s.cfg := by cases e <;> rfl
@[simp] theorem emit_buf (e : Event) (s : State) : (emit e s).buf = s.buf := by cases e <;> rfl
@[simp] theorem emit_backend (e : Event) (s : State) : (emit e s).backend = s.backend := by cases e <;> rfl
@[simp] theorem emit_committed (e : Event) (s : State) : (emit e s).committed = s.committed := by cases e <;> rfl
@[simp] theorem emit_busy (e : Event) (s : State) : (emit e s).busy = s.busy := by cases e <;> rfl
@[simp] theorem emit_initStatus (e : Event) (s : State) : (emit e s).initStatus = s.initStatus := by cases e <;> rfl
@[simp] theorem emit_cmdInvalid (e : Event) (s : State) : (emit e s).cmdInvalid = s.cmdInvalid := by cases e <;> rfl
@[simp] theorem emit_input (e : Event) (s : State) : (emit e s).input = s.input := by cases e <;> rfl
@[simp] theorem emit_freeCtr (e : Event) (s : State) : (emit e s).freeCtr = s.freeCtr := by cases e <;> rfl
@[simp] theorem emit_upc (e : Event) (s : State) : (emit e s).upc = s.upc + 1 := rfl
@[simp] theorem emit_trace (e : Event) (s : State) : (emit e s).trace = s.trace ++ [e] := rfl

/-! `emit`: the line, duty and tube registers, event by event. -/

@[simp] theorem emit_data_clk (b : Bool) (s : State) : (emit (.data b) s).clk = s.clk := rfl
@[simp] theorem emit_data_dat (b : Bool) (s : State) : (emit (.data b) s).dat = b := rfl
@[simp] theorem emit_data_lat (b : Bool) (s : State) : (emit (.data b) s).lat = s.lat := rfl
@[simp] theorem emit_data_dutyLevel (b : Bool) (s : State) : (emit (.data b) s).dutyLevel = s.dutyLevel := rfl
@[simp] theorem emit_data_sr (b : Bool) (s : State) : (emit (.data b) s).sr = s.sr := rfl
@[simp] theorem emit_data_store (b : Bool) (s : State) : (emit (.data b) s).store = s.store := rfl
@[simp] theorem emit_clk_clk (b : Bool) (s : State) : (emit (.clk b) s).clk = b := rfl
@[simp] theorem emit_clk_dat (b : Bool) (s : State) : (emit (.clk b) s).dat = s.dat := rfl
@[simp] theorem emit_clk_lat (b : Bool) (s : State) : (emit (.clk b) s).lat = s.lat := rfl
@[simp] theorem emit_clk_dutyLevel (b : Bool) (s : State) : (emit (.clk b) s).dutyLevel = s.dutyLevel := rfl
@[simp] theorem emit_clk_sr (b : Bool) (s : State) : (emit (.clk b) s).sr = if b && !s.clk then shiftIn s.dat s.sr else s.sr := rfl
@[simp] theorem emit_clk_store (b : Bool) (s : State) : (emit (.clk b) s).store = s.store := rfl
@[simp] theorem emit_lat_clk (b : Bool) (s : State) : (emit (.lat b) s).clk = s.clk := rfl
@[simp] theorem emit_lat_dat (b : Bool) (s : State) : (emit (.lat b) s).dat = s.dat := rfl
@[simp] theorem emit_lat_lat (b : Bool) (s : State) : (emit (.lat b) s).lat = b := rfl
@[simp] theorem emit_lat_dutyLevel (b : Bool) (s : State) : (emit (.lat b) s).dutyLevel = s.dutyLevel := rfl
@[simp] theorem emit_lat_sr (b : Bool) (s : State) : (emit (.lat b) s).sr = s.sr := rfl
@[simp] theorem emit_lat_store (b : Bool) (s : State) : (emit (.lat b) s).store = if b && !s.lat then s.sr else s.store := rfl
@[simp] theorem emit_en_clk (b : Bool) (s : State) : (emit (.en b) s).clk = s.clk := rfl
@[simp] theorem emit_en_dat (b : Bool) (s : State) : (emit (.en b) s).dat = s.dat := rfl
@[simp] theorem emit_en_lat (b : Bool) (s : State) : (emit (.en b) s).lat = s.lat := rfl
@[simp] theorem emit_en_dutyLevel (b : Bool) (s : State) : (emit (.en b) s).dutyLevel = s.dutyLevel := rfl
@[simp] theorem emit_en_sr (b : Bool) (s : State) : (emit (.en b) s).sr = s.sr := rfl
@[simp] theorem emit_en_store (b : Bool) (s : State) : (emit (.en b) s).store = s.store := rfl
@[simp] theorem emit_duty_clk (level : Byte) (s : State) : (emit (.duty level) s).clk = s.clk := rfl
@[simp] theorem emit_duty_dat (level : Byte) (s : State) : (emit (.duty level) s).dat = s.dat := rfl
@[simp] theorem emit_duty_lat (level : Byte) (s : State) : (emit (.duty level) s).lat = s.lat := rfl
@[simp] theorem emit_duty_dutyLevel (level : Byte) (s : State) : (emit (.duty level) s).dutyLevel = level := rfl
@[simp] theorem emit_duty_sr (level : Byte) (s : State) : (emit (.duty level) s).sr = s.sr := rfl
@[simp] theorem emit_duty_store (level : Byte) (s : State) : (emit (.duty level) s).store = s.store := rfl
@[simp] theorem emit_diag_clk (level : Byte) (s : State) : (emit (.diag level) s).clk = s.clk := rfl
@[simp] theorem emit_diag_dat (level : Byte) (s : State) : (emit (.diag level) s).dat = s.dat := rfl
@[simp] theorem emit_diag_lat (level : Byte) (s : State) : (emit (.diag level) s).lat = s.lat := rfl
@[simp] theorem emit_diag_dutyLevel (level : Byte) (s : State) : (emit (.diag level) s).dutyLevel = s.dutyLevel := rfl
@[simp] theorem emit_diag_sr (level : Byte) (s : State) : (emit (.diag level) s).sr = s.sr := rfl
@[simp] theorem emit_diag_store (level : Byte) (s : State) : (emit (.diag level) s).store = s.store := rfl
@[simp] theorem emit_wait_clk (h : Hold) (s : State) : (emit (.wait h) s).clk = s.clk := rfl
@[simp] theorem emit_wait_dat (h : Hold) (s : State) : (emit (.wait h) s).dat = s.dat := rfl
@[simp] theorem emit_wait_lat (h : Hold) (s : State) : (emit (.wait h) s).lat = s.lat := rfl
@[simp] theorem emit_wait_dutyLevel (h : Hold) (s : State) : (emit (.wait h) s).dutyLevel = s.dutyLevel := rfl
@[simp] theorem emit_wait_sr (h : Hold) (s : State) : (emit (.wait h) s).sr = s.sr := rfl
@[simp] theorem emit_wait_store (h : Hold) (s : State) : (emit (.wait h) s).store = s.store := rfl

/-! Beginning and ending an operation. -/

@[simp] theorem beginPlan_cfg (p : Plan) (s : State) : (beginPlan p s).cfg = s.cfg := rfl
@[simp] theorem beginPlan_buf (p : Plan) (s : State) : (beginPlan p s).buf = p.buf := rfl
@[simp] theorem beginPlan_clk (p : Plan) (s : State) : (beginPlan p s).clk = s.clk := rfl
@[simp] theorem beginPlan_dat (p : Plan) (s : State) : (beginPlan p s).dat = s.dat := rfl
@[simp] theorem beginPlan_lat (p : Plan) (s : State) : (beginPlan p s).lat = s.lat := rfl
@[simp] theorem beginPlan_backend (p : Plan) (s : State) : (beginPlan p s).backend = s.backend := rfl
@[simp] theorem beginPlan_dutyLevel (p : Plan) (s : State) : (beginPlan p s).dutyLevel = s.dutyLevel := rfl
@[simp] theorem beginPlan_committed (p : Plan) (s : State) : (beginPlan p s).committed = s.committed := rfl
@[simp] theorem beginPlan_busy (p : Plan) (s : State) : (beginPlan p s).busy = true := rfl
@[simp] theorem beginPlan_upc (p : Plan) (s : State) : (beginPlan p s).upc = 0 := rfl
@[simp] theorem beginPlan_initStatus (p : Plan) (s : State) : (beginPlan p s).initStatus = s.initStatus := rfl
@[simp] theorem beginPlan_cmdInvalid (p : Plan) (s : State) : (beginPlan p s).cmdInvalid = s.cmdInvalid := rfl
@[simp] theorem beginPlan_sr (p : Plan) (s : State) : (beginPlan p s).sr = s.sr := rfl
@[simp] theorem beginPlan_store (p : Plan) (s : State) : (beginPlan p s).store = s.store := rfl
@[simp] theorem beginPlan_trace (p : Plan) (s : State) : (beginPlan p s).trace = s.trace := rfl
@[simp] theorem beginPlan_input (p : Plan) (s : State) : (beginPlan p s).input = s.input := rfl
@[simp] theorem beginPlan_freeCtr (p : Plan) (s : State) : (beginPlan p s).freeCtr = s.freeCtr := rfl
@[simp] theorem endPlan_cfg (p : Plan) (s : State) : (endPlan p s).cfg = s.cfg := rfl
@[simp] theorem endPlan_buf (p : Plan) (s : State) : (endPlan p s).buf = s.buf := rfl
@[simp] theorem endPlan_clk (p : Plan) (s : State) : (endPlan p s).clk = s.clk := rfl
@[simp] theorem endPlan_dat (p : Plan) (s : State) : (endPlan p s).dat = s.dat := rfl
@[simp] theorem endPlan_lat (p : Plan) (s : State) : (endPlan p s).lat = s.lat := rfl
@[simp] theorem endPlan_backend (p : Plan) (s : State) : (endPlan p s).backend = s.backend := rfl
@[simp] theorem endPlan_dutyLevel (p : Plan) (s : State) : (endPlan p s).dutyLevel = s.dutyLevel := rfl
@[simp] theorem endPlan_committed (p : Plan) (s : State) : (endPlan p s).committed = if p.commits then some s.buf else s.committed := rfl
@[simp] theorem endPlan_busy (p : Plan) (s : State) : (endPlan p s).busy = false := rfl
@[simp] theorem endPlan_upc (p : Plan) (s : State) : (endPlan p s).upc = 0 := rfl
@[simp] theorem endPlan_initStatus (p : Plan) (s : State) : (endPlan p s).initStatus = s.initStatus := rfl
@[simp] theorem endPlan_cmdInvalid (p : Plan) (s : State) : (endPlan p s).cmdInvalid = s.cmdInvalid := rfl
@[simp] theorem endPlan_sr (p : Plan) (s : State) : (endPlan p s).sr = s.sr := rfl
@[simp] theorem endPlan_store (p : Plan) (s : State) : (endPlan p s).store = s.store := rfl
@[simp] theorem endPlan_trace (p : Plan) (s : State) : (endPlan p s).trace = s.trace := rfl
@[simp] theorem endPlan_input (p : Plan) (s : State) : (endPlan p s).input = s.input := rfl
@[simp] theorem endPlan_freeCtr (p : Plan) (s : State) : (endPlan p s).freeCtr = s.freeCtr := rfl

/-! Construction. -/

@[simp] theorem freeTubes_cfg (s : State) : (freeTubes s).cfg = s.cfg := rfl
@[simp] theorem freeTubes_buf (s : State) : (freeTubes s).buf = s.buf := rfl
@[simp] theorem freeTubes_clk (s : State) : (freeTubes s).clk = s.clk := rfl
@[simp] theorem freeTubes_dat (s : State) : (freeTubes s).dat = s.dat := rfl
@[simp] theorem freeTubes_lat (s : State) : (freeTubes s).lat = s.lat := rfl
@[simp] theorem freeTubes_backend (s : State) : (freeTubes s).backend = s.backend := rfl
@[simp] theorem freeTubes_dutyLevel (s : State) : (freeTubes s).dutyLevel = s.dutyLevel := rfl
@[simp] theorem freeTubes_committed (s : State) : (freeTubes s).committed = s.committed := rfl
@[simp] theorem freeTubes_busy (s : State) : (freeTubes s).busy = s.busy := rfl
@[simp] theorem freeTubes_upc (s : State) : (freeTubes s).upc = s.upc := rfl
@[simp] theorem freeTubes_initStatus (s : State) : (freeTubes s).initStatus = s.initStatus := rfl
@[simp] theorem freeTubes_cmdInvalid (s : State) : (freeTubes s).cmdInvalid = s.cmdInvalid := rfl
@[simp] theorem freeTubes_sr (s : State) : (freeTubes s).sr = Config.freeBits s.freeCtr (16 * s.cfg.numTubes) := rfl
@[simp] theorem freeTubes_store (s : State) : (freeTubes s).store = Config.freeBits (s.freeCtr + 16 * s.cfg.numTubes) (16 * s.cfg.numTubes) := rfl
@[simp] theorem freeTubes_trace (s : State) : (freeTubes s).trace = s.trace := rfl
@[simp] theorem freeTubes_input (s : State) : (freeTubes s).input = s.input := rfl
@[simp] theorem freeTubes_freeCtr (s : State) : (freeTubes s).freeCtr = s.freeCtr + 32 * s.cfg.numTubes := rfl
@[simp] theorem raiseInitFatal_cfg (s : State) : (raiseInitFatal s).cfg = s.cfg := rfl
@[simp] theorem raiseInitFatal_buf (s : State) : (raiseInitFatal s).buf = [] := rfl
@[simp] theorem raiseInitFatal_clk (s : State) : (raiseInitFatal s).clk = false := rfl
@[simp] theorem raiseInitFatal_dat (s : State) : (raiseInitFatal s).dat = false := rfl
@[simp] theorem raiseInitFatal_lat (s : State) : (raiseInitFatal s).lat = false := rfl
@[simp] theorem raiseInitFatal_backend (s : State) : (raiseInitFatal s).backend = .digital := rfl
@[simp] theorem raiseInitFatal_dutyLevel (s : State) : (raiseInitFatal s).dutyLevel = 0 := rfl
@[simp] theorem raiseInitFatal_committed (s : State) : (raiseInitFatal s).committed = none := rfl
@[simp] theorem raiseInitFatal_busy (s : State) : (raiseInitFatal s).busy = false := rfl
@[simp] theorem raiseInitFatal_upc (s : State) : (raiseInitFatal s).upc = 0 := rfl
@[simp] theorem raiseInitFatal_initStatus (s : State) : (raiseInitFatal s).initStatus = .initFatal := rfl
@[simp] theorem raiseInitFatal_cmdInvalid (s : State) : (raiseInitFatal s).cmdInvalid = false := rfl
@[simp] theorem raiseInitFatal_sr (s : State) : (raiseInitFatal s).sr = s.sr := rfl
@[simp] theorem raiseInitFatal_store (s : State) : (raiseInitFatal s).store = s.store := rfl
@[simp] theorem raiseInitFatal_trace (s : State) : (raiseInitFatal s).trace = s.trace := rfl
@[simp] theorem raiseInitFatal_input (s : State) : (raiseInitFatal s).input = s.input := rfl
@[simp] theorem raiseInitFatal_freeCtr (s : State) : (raiseInitFatal s).freeCtr = s.freeCtr := rfl

theorem constructBlock_pwm (s : State) (h : s.cfg.pwmAvailable = true) :
    constructBlock s =
      { s with
        buf := Memory.fill s.cfg.numTubes (fun _ => TubeState.dflt), clk := false, dat := false
        lat := s.cfg.latchResetLevel, backend := .pwm, dutyLevel := 255, committed := none, busy := false, upc := 0
        initStatus := .ready, cmdInvalid := false, trace := s.trace ++ [.duty 255] } := by
  simp [constructBlock, constructBrightness, h, emit, applyEvent]

theorem constructBlock_digital (s : State) (h : s.cfg.pwmAvailable = false) :
    constructBlock s =
      { s with
        buf := Memory.fill s.cfg.numTubes (fun _ => TubeState.dflt), clk := false, dat := false
        lat := s.cfg.latchResetLevel, backend := .digital, dutyLevel := 255, committed := none, busy := false
        upc := 0, initStatus := .degraded, cmdInvalid := false, trace := s.trace ++ [.en true] } := by
  simp [constructBlock, constructBrightness, h, emit, applyEvent]

end Sys2Proof.Machine
end

