-- ==== Sys2Proof/Laws/Ops.lean ====
section
/-! SUPPORT. What each shared operation can do, said once: the buffer, a list of events, an operation performed to
completion, construction, the port. -/

namespace Sys2Proof.Machine

/-! The buffer keeps its canonical form, and a write is read back at its own index only. -/

theorem Memory.wf_write {n : Nat} {buf : List TubeState} (h : Memory.wf n buf) (i : Nat) (t : TubeState) :
    Memory.wf n (Memory.write buf i t) := by simpa [Memory.wf, Memory.write] using h

theorem Memory.wf_fill (n : Nat) (f : Nat → TubeState) : Memory.wf n (Memory.fill n f) := by
  simp [Memory.wf, Memory.fill]

theorem Memory.wf_reset : Memory.wf State.reset.cfg.numTubes State.reset.buf := by
  simp [Memory.wf, State.reset]

theorem Memory.read_write_same {buf : List TubeState} {i : Nat} (h : i < buf.length) (t : TubeState) :
    Memory.read (Memory.write buf i t) i = some t := by simp [Memory.read, Memory.write, h]

theorem Memory.read_write_other {i j : Nat} (h : i ≠ j) (buf : List TubeState) (t : TubeState) :
    Memory.read (Memory.write buf i t) j = Memory.read buf j := by simp [Memory.read, Memory.write, List.getElem?_set_ne h]

theorem Memory.read_fill {n i : Nat} (h : i < n) (f : Nat → TubeState) :
    Memory.read (Memory.fill n f) i = some (f i) := by simp [Memory.read, Memory.fill, h]

/-! A list of events. -/

@[simp] theorem emitAll_nil (s : State) : emitAll [] s = s := rfl

@[simp] theorem emitAll_cons (e : Event) (es : List Event) (s : State) :
    emitAll (e :: es) s = emitAll es (emit e s) := rfl

theorem emitAll_append (es fs : List Event) (s : State) : emitAll (es ++ fs) s = emitAll fs (emitAll es s) :=
  List.foldl_append ..

@[simp] theorem emitAll_cfg (es : List Event) (s : State) : (emitAll es s).cfg = s.cfg := by
  induction es generalizing s with
  | nil => rfl
  | cons e es ih => simp [ih]

@[simp] theorem emitAll_buf (es : List Event) (s : State) : (emitAll es s).buf = s.buf := by
  induction es generalizing s with
  | nil => rfl
  | cons e es ih => simp [ih]

@[simp] theorem emitAll_backend (es : List Event) (s : State) : (emitAll es s).backend = s.backend := by
  induction es generalizing s with
  | nil => rfl
  | cons e es ih => simp [ih]

@[simp] theorem emitAll_committed (es : List Event) (s : State) : (emitAll es s).committed = s.committed := by
  induction es generalizing s with
  | nil => rfl
  | cons e es ih => simp [ih]

@[simp] theorem emitAll_busy (es : List Event) (s : State) : (emitAll es s).busy = s.busy := by
  induction es generalizing s with
  | nil => rfl
  | cons e es ih => simp [ih]

@[simp] theorem emitAll_initStatus (es : List Event) (s : State) : (emitAll es s).initStatus = s.initStatus := by
  induction es generalizing s with
  | nil => rfl
  | cons e es ih => simp [ih]

@[simp] theorem emitAll_cmdInvalid (es : List Event) (s : State) : (emitAll es s).cmdInvalid = s.cmdInvalid := by
  induction es generalizing s with
  | nil => rfl
  | cons e es ih => simp [ih]

@[simp] theorem emitAll_input (es : List Event) (s : State) : (emitAll es s).input = s.input := by
  induction es generalizing s with
  | nil => rfl
  | cons e es ih => simp [ih]

@[simp] theorem emitAll_freeCtr (es : List Event) (s : State) : (emitAll es s).freeCtr = s.freeCtr := by
  induction es generalizing s with
  | nil => rfl
  | cons e es ih => simp [ih]

@[simp] theorem emitAll_trace (es : List Event) (s : State) : (emitAll es s).trace = s.trace ++ es := by
  induction es generalizing s with
  | nil => simp
  | cons e es ih => simp [ih]

@[simp] theorem emitAll_upc (es : List Event) (s : State) : (emitAll es s).upc = s.upc + es.length := by
  induction es generalizing s with
  | nil => simp
  | cons e es ih => simp [ih]; omega

@[simp] theorem shiftIn_length (b : Bool) (sr : List Bool) : (shiftIn b sr).length = sr.length := by
  simp [shiftIn]

@[simp] theorem emit_sr_length (e : Event) (s : State) : (emit e s).sr.length = s.sr.length := by
  cases e <;> simp
  split <;> simp

@[simp] theorem emitAll_sr_length (es : List Event) (s : State) : (emitAll es s).sr.length = s.sr.length := by
  induction es generalizing s with
  | nil => rfl
  | cons e es ih => simp [ih]

/-- The storage stage keeps its length where the two stages have the same one. -/
theorem emitAll_store_length (es : List Event) (s : State) (h : s.store.length = s.sr.length) :
    (emitAll es s).store.length = s.sr.length := by
  induction es generalizing s with
  | nil => exact h
  | cons e es ih =>
    have : (emit e s).store.length = (emit e s).sr.length := by
      cases e with
      | lat b => simp only [emit_lat_store, emit_lat_sr]; split <;> simp [h]
      | clk b => simp only [emit_clk_store, emit_clk_sr]; split <;> simp [h]
      | _ => simp [h]
    simpa using ih (emit e s) this

/-! An operation performed to completion. -/

theorem runPlan_ready (p : Plan) {s : State} (h : s.cmdReady = true) :
    runPlan p s = .next (endPlan p (emitAll p.events (beginPlan p s))) := by simp [runPlan, h]

theorem runPlan_notReady (p : Plan) {s : State} (h : s.cmdReady = false) : runPlan p s = .next s := by
  simp [runPlan, h]

/-- Everything `runPlan` can answer. -/
theorem runPlan_cases {p : Plan} {s : State} {o : Host.Outcome State Fault Refusal} (h : runPlan p s = o) :
    (s.cmdReady = true ∧ o = .next (endPlan p (emitAll p.events (beginPlan p s)))) ∨
    (s.cmdReady = false ∧ o = .next s) := by
  cases hr : s.cmdReady
  · exact .inr ⟨rfl, by rw [← h, runPlan_notReady p hr]⟩
  · exact .inl ⟨rfl, by rw [← h, runPlan_ready p hr]⟩

/-- An operation with no events changes the buffer and, where it commits, the committed copy. -/
theorem runPlan_silent (p : Plan) {s : State} (h : s.cmdReady = true) (he : p.events = []) :
    runPlan p s = .next { s with
      buf := p.buf, committed := if p.commits then some p.buf else s.committed, upc := 0, busy := false } := by
  simp [runPlan_ready p h, he, endPlan, beginPlan]

theorem cmdReady_iff (s : State) : s.cmdReady = true ↔ s.busy = false ∧ s.initStatus ≠ .initFatal := by
  simp [State.cmdReady]

/-- `exec` performs the plan of its instruction. -/
theorem exec_eq_runPlan (i : Instr) (s : State) : exec i s = runPlan (planOf i s) s := by cases i <;> rfl

/-! The port. -/

theorem fetch_cons {s : State} {x : HostInput} {rest : List HostInput} (h : s.input = x :: rest) :
    fetch s = (x, { s with input := rest, cmdInvalid := false }) := by simp [fetch, h]

theorem fetch_nil {s : State} (h : s.input = []) : fetch s = (.idle, { s with cmdInvalid := false }) := by
  simp [fetch, h]

theorem reconstruct_valid {c : Config} (h : c.Valid) (s : State) : reconstruct c s = .next (construct c s) := by
  simp only [reconstruct, if_pos h]

theorem reconstruct_invalid {c : Config} (h : ¬ c.Valid) (s : State) :
    reconstruct c s = .refused .parametersOutOfRange := by
  simp only [reconstruct, if_neg h]

/-- Everything a step can do. -/
theorem step_cases (s : State) :
    (s.input = [] ∧ step s = .next { s with cmdInvalid := false }) ∨
    ∃ x rest, s.input = x :: rest ∧
      ((x = .idle ∧ step s = .next { s with input := rest, cmdInvalid := false }) ∨
       (∃ w, x = .present w ∧ step s = present w { s with input := rest, cmdInvalid := false }) ∨
       (∃ c, x = .construct c ∧ step s = reconstruct c { s with input := rest, cmdInvalid := false }) ∨
       (∃ w k c, x = .cutShort w k c ∧ step s = cutShort w k c { s with input := rest, cmdInvalid := false })) := by
  cases h : s.input with
  | nil => exact .inl ⟨rfl, by simp [step, fetch_nil h, h]⟩
  | cons x rest =>
    refine .inr ⟨x, rest, rfl, ?_⟩
    cases x with
    | idle => exact .inl ⟨rfl, by simp [step, fetch_cons h]⟩
    | present w => exact .inr (.inl ⟨w, rfl, by simp [step, fetch_cons h]⟩)
    | construct c => exact .inr (.inr (.inl ⟨c, rfl, by simp [step, fetch_cons h]⟩))
    | cutShort w k c => exact .inr (.inr (.inr ⟨w, k, c, rfl, by simp [step, fetch_cons h]⟩))

end Sys2Proof.Machine
end

