-- ==== Sys2Proof/Laws/PerInstr.lean ====
section
/-! SUPPORT. Statements made per instruction, one lemma for each constructor of Instr. -/

namespace Sys2Proof.Laws.EncodedOpcode

/-- The opcode of rule R62; none for the frame word, which is no host operation. -/
def opcodeOf : Instr → Option (BitVec 8)
  | .setTube .. => some 0x01
  | .setNumber .. => some 0x02
  | .render => some 0x03
  | .clear => some 0x04
  | .setBrightness _ => some 0x05
  | .shiftByte _ => some 0x06
  | .latch => some 0x07
  | .tubeFrame .. => none

/-- An instruction is encoded as a command word with its opcode in `cmd[63:56]` (rule R63), or as a frame word where it
has none. -/
def Statement (i : Instr) : Prop :=
  match encode i with
  | .command w => opcodeOf i = some (opcodeField w)
  | .frame _ => opcodeOf i = none

theorem setTube (index : Nat) (digit : Digit) (color : Color) (voltage comma : Bool) (brightness : Byte) :
    Statement (.setTube index digit color voltage comma brightness) := by
  simp [Statement, encode, opcodeOf]

theorem setNumber (value : Int) (color : Color) (leadingZeros : Bool) (brightness : Byte) :
    Statement (.setNumber value color leadingZeros brightness) := by
  simp [Statement, encode, opcodeOf]

theorem render : Statement .render := by simp [Statement, encode, opcodeOf]

theorem clear : Statement .clear := by simp [Statement, encode, opcodeOf]

theorem setBrightness (level : Byte) : Statement (.setBrightness level) := by simp [Statement, encode, opcodeOf]

theorem shiftByte (value : Byte) : Statement (.shiftByte value) := by simp [Statement, encode, opcodeOf]

theorem latch : Statement .latch := by simp [Statement, encode, opcodeOf]

theorem tubeFrame (ctl dig : Byte) : Statement (.tubeFrame ctl dig) := by simp [Statement, encode, opcodeOf]

end Sys2Proof.Laws.EncodedOpcode
end

