-- ==== Sys2Proof/Laws/Serial.lean ====
section
/-! SUPPORT. What a bit, a byte and a latch do to the lines and the tubes (rules R30, R111, R114). -/

namespace Sys2Proof.Machine

/-- One bit sent while the clock line is low. -/
theorem emitAll_bitEvents (b : Bool) {s : State} (h : s.clk = false) :
    emitAll (bitEvents b) s =
      { s with
        dat := b, clk := false, sr := shiftIn b s.sr, trace := s.trace ++ bitEvents b, upc := s.upc + 6 } := by
  simp [bitEvents, emit, applyEvent, h]

/-- The stage after the bits `bits` have been shifted in, the first of them first. -/
def shiftAll (bits : List Bool) (sr : List Bool) : List Bool := bits.foldl (fun r b => shiftIn b r) sr

/-- The bits shifted in lie in the near stages, the last of them at stage 0; what is over falls off the far end. -/
theorem shiftAll_eq (bits sr : List Bool) : shiftAll bits sr = (bits.reverse ++ sr).take sr.length := by
  induction bits generalizing sr with
  | nil => simp [shiftAll]
  | cons b bits ih =>
    have hs : shiftIn b sr = (b :: sr).take sr.length := by
      rw [shiftIn, List.dropLast_eq_take]; simp
    have : shiftAll (b :: bits) sr = shiftAll bits (shiftIn b sr) := rfl
    rw [this, ih, shiftIn_length, hs]
    simp only [List.reverse_cons, List.append_assoc, List.cons_append, List.nil_append]
    rw [List.take_append, List.take_append, List.take_take]
    congr 2
    omega

/-- Bits sent one after another while the clock line is low. -/
theorem emitAll_bits (bits : List Bool) {s : State} (h : s.clk = false) :
    emitAll (bits.flatMap bitEvents) s =
      { s with
        dat := bits.getLast?.getD s.dat, clk := false, sr := shiftAll bits s.sr
        trace := s.trace ++ bits.flatMap bitEvents, upc := s.upc + 6 * bits.length } := by
  induction bits generalizing s with
  | nil => cases s; simp_all [shiftAll]
  | cons b bits ih =>
    rw [List.flatMap_cons, emitAll_append, emitAll_bitEvents b h, ih rfl]
    have hd : (bits.getLast?.getD b) = ((b :: bits).getLast?.getD s.dat) := by
      cases bits with
      | nil => rfl
      | cons c cs => simp [List.getLast?_cons]
    simp only [hd, List.append_assoc, List.length_cons]
    simp [shiftAll, Nat.mul_add, Nat.add_assoc, Nat.add_comm]

/-- The bits of a byte, most significant first (rule R45). -/
def byteBits (v : Byte) : List Bool := [7, 6, 5, 4, 3, 2, 1, 0].map v.getLsbD

theorem byteEvents_eq (v : Byte) : byteEvents v = (byteBits v).flatMap bitEvents := rfl

/-- A latch: the line ends high, and the tubes have captured their shift stage, whatever the line was before
(rule R116). -/
theorem emitAll_latchEvents (s : State) :
    emitAll latchEvents s =
      { s with lat := true, store := s.sr, trace := s.trace ++ latchEvents, upc := s.upc + 3 } := by
  simp [latchEvents, emit, applyEvent]

end Sys2Proof.Machine
end

