-- ==== Sys2Proof/Laws/Render.lean ====
section
/-! SUPPORT. What a frame, a tube and a list of tubes do to the state while the clock line is low (rules R131, R150). -/

namespace Sys2Proof.Machine

/-- The sixteen bits of a frame in the order they are sent (rules R44, R45). -/
def frameBits (f : Frame) : List Bool := byteBits f.ctl ++ byteBits f.dig

theorem frameEvents_eq (f : Frame) : frameEvents f = (frameBits f).flatMap bitEvents := by
  simp [frameEvents, byteEvents_eq, frameBits]

/-- The duty a brightness event of a level leaves. -/
def dutyAfter (backend : Backend) (level old : Byte) : Byte := if backend = .pwm then level else old

theorem emitAll_brightnessEvents (backend : Backend) (level : Byte) (s : State) :
    emitAll (brightnessEvents backend level) s =
      { s with
        dutyLevel := dutyAfter backend level s.dutyLevel
        trace := s.trace ++ brightnessEvents backend level, upc := s.upc + 1 } := by
  cases backend <;> rfl

theorem emitAll_frameEvents (f : Frame) {s : State} (h : s.clk = false) :
    emitAll (frameEvents f) s =
      { s with
        dat := f.dig.getLsbD 0, clk := false, sr := shiftAll (frameBits f) s.sr
        trace := s.trace ++ frameEvents f, upc := s.upc + 96 } := by
  rw [frameEvents_eq, emitAll_bits _ h]
  rfl

theorem emitAll_tubeEvents (l : CtlLayout) (backend : Backend) (t : TubeState) {s : State} (h : s.clk = false) :
    emitAll (tubeEvents l backend t) s =
      { s with
        dutyLevel := dutyAfter backend t.brightness s.dutyLevel
        dat := (encodeTube l t).dig.getLsbD 0, clk := false
        sr := shiftAll (frameBits (encodeTube l t)) s.sr
        trace := s.trace ++ tubeEvents l backend t, upc := s.upc + 97 } := by
  rw [tubeEvents, emitAll_append, emitAll_brightnessEvents, emitAll_frameEvents _ (by exact h)]
  simp

/-- Tubes sent one after another: the last one's duty and data level stay. -/
theorem emitAll_tubes (l : CtlLayout) (backend : Backend) (ts : List TubeState) {s : State} (h : s.clk = false) :
    emitAll (ts.flatMap (tubeEvents l backend)) s =
      { s with
        dutyLevel := (ts.getLast?.map fun t => dutyAfter backend t.brightness s.dutyLevel).getD s.dutyLevel
        dat := (ts.getLast?.map fun t => (encodeTube l t).dig.getLsbD 0).getD s.dat, clk := false
        sr := shiftAll (ts.flatMap fun t => frameBits (encodeTube l t)) s.sr
        trace := s.trace ++ ts.flatMap (tubeEvents l backend), upc := s.upc + 97 * ts.length } := by
  induction ts generalizing s with
  | nil => cases s; simp_all [shiftAll]
  | cons t ts ih =>
    rw [List.flatMap_cons, emitAll_append, emitAll_tubeEvents l backend t h, ih rfl]
    cases ts with
    | nil => simp [shiftAll]
    | cons u us =>
      simp [shiftAll, List.getLast?_cons, dutyAfter, Nat.mul_add, Nat.add_assoc, Nat.add_comm]
      split <;> simp_all

/-- Bit `m` of the `i`-th block of sixteen. -/
theorem getElem?_flatMap_sixteen {α : Type} (g : α → List Bool) (hg : ∀ a, (g a).length = 16) (xs : List α)
    {i m : Nat} {x : α} (h : xs[i]? = some x) (hm : m < 16) : (xs.flatMap g)[16 * i + m]? = (g x)[m]? := by
  induction xs generalizing i with
  | nil => simp at h
  | cons a as ih =>
    cases i with
    | zero =>
      have : a = x := by simpa using h
      rw [List.flatMap_cons, List.getElem?_append_left (by rw [hg]; omega), ← this]
      simp
    | succ i =>
      rw [List.flatMap_cons, List.getElem?_append_right (by rw [hg]; omega), hg,
        show 16 * (i + 1) + m - 16 = 16 * i + m by omega]
      exact ih (by simpa using h)

end Sys2Proof.Machine
end

