-- ==== Sys2Proof/Tests/Slice0.lean ====
section
/-! SUPPORT. Tests against the vectors of 95_test_vectors.md, the smoke test of WellFormed, and a witness for every
statement that has hypotheses. Expected values are the spec's. -/

namespace Sys2Proof.Tests
open Sys2Proof.Machine

/-! Helpers. -/

/-- A constructed machine with `n` tubes, its chain zero, all free parameters fixed. -/
def bench (n : Nat) (pwm : Bool) : State :=
  { State.reset with
    cfg := { Config.launch with numTubes := n, pwmAvailable := pwm, latchResetLevel := false }
    buf := List.replicate n TubeState.dflt
    lat := false
    backend := if pwm then .pwm else .digital
    initStatus := if pwm then .ready else .degraded
    trace := []
    sr := List.replicate (16 * n) false
    store := List.replicate (16 * n) false }

/-- The parameters of `bench`. -/
def params (n : Nat) (pwm lines : Bool) : Config :=
  { Config.launch with numTubes := n, pwmAvailable := pwm, linesAvailable := lines, latchResetLevel := true }

/-- The second layout of section 2.1 of the vectors. -/
def otherLayout : CtlLayout :=
  { pD8 := 7, pD9 := 6, pR := 0, pG := 1, pB := 2, pHV := 3, pComma := 4, pSpare := 5 }

/-- What `f` reads in the next state. -/
def after {α : Type} (o : Host.Outcome State Fault Refusal) (f : State → α) : Option α :=
  match o with
  | .next t => some (f t)
  | .fault _ => none
  | .refused _ => none

/-- The bits of tube `i`'s frame in the storage stage, bit 15 first, as a number. -/
def shown (t : State) (i : Nat) : Nat :=
  (((t.store.drop (16 * i)).take 16).reverse).foldl (fun n b => 2 * n + b.toNat) 0

def tube (d : Digit) (c : Color) (v m : Bool) (b : Byte) : TubeState :=
  { digit := d, color := c, voltageEnabled := v, comma := m, brightness := b }

/-! WellFormed: an ill-formed term for each check. -/

theorem test_wf_refuses :
    (Instr.setTube (2 ^ 32) .blank .white true false 0).wf .standard = false ∧
    (Instr.setNumber (2 ^ 31) .red false 0).wf .standard = false ∧
    (Instr.setNumber (-(2 ^ 31) - 1) .red false 0).wf .standard = false ∧
    (Instr.tubeFrame 0x80 0).wf .standard = false ∧ (Instr.tubeFrame 0x20 0).wf otherLayout = false ∧
    (Instr.setTube (2 ^ 32 - 1) .blank .white true false 0).wf .standard = true ∧
    (Instr.setNumber (-(2 ^ 31)) .red false 0).wf .standard = true := by decide

theorem test_config_refuses :
    ¬ (params 0 true true).Valid ∧ ¬ (params (2 ^ 32 + 1) true true).Valid ∧
    ¬ ({ params 2 true true with layout := { otherLayout with pD8 := 0 } } : Config).Valid ∧
    ¬ ({ params 2 true true with tBit := 0 } : Config).Valid ∧
    ¬ ({ params 2 true true with tLatch := 1 } : Config).Valid ∧
    ¬ ({ params 2 true true with pwmFreqHz := 0 } : Config).Valid ∧ (params 1 true true).Valid := by decide

/-! Decoding: a word of each operation written field by field from the table of rule R64
(opcode, [55:24], [23:20], [19:17], [16], [15], [14:8], [7:0]). -/

theorem test_decode_setTube :
    decodeCommand (0x01#8 ++ 1#32 ++ 8#4 ++ 1#3 ++ 1#1 ++ 1#1 ++ 0#7 ++ 100#8) =
      .ok (.setTube 1 (.figure 8) .blue true true 100) ∧
    decodeCommand 0x0100000001838064 = .ok (.setTube 1 (.figure 8) .blue true true 100) ∧
    decodeCommand 0x0100000000F90000 = .ok (.setTube 0 .blank .white true false 0) := by decide

theorem test_decode_setNumber :
    decodeCommand (0x02#8 ++ 0xFFFFFFF9#32 ++ 0#4 ++ 4#3 ++ 1#1 ++ 0#1 ++ 0#7 ++ 50#8) =
      .ok (.setNumber (-7) .white true 50) ∧
    decodeCommand 0x02000000890400FF = .ok (.setNumber 137 .green false 255) ∧
    decodeCommand 0x0280000000060001 = .ok (.setNumber (-2147483648) .red false 1) := by decide

theorem test_decode_others :
    decodeCommand (0x03#8 ++ 0#56) = .ok .render ∧ decodeCommand (0x04#8 ++ 0#56) = .ok .clear ∧
    decodeCommand (0x05#8 ++ 0#48 ++ 51#8) = .ok (.setBrightness 51) ∧
    decodeCommand (0x06#8 ++ 0#48 ++ 0xA5#8) = .ok (.shiftByte 0xA5) ∧
    decodeCommand (0x07#8 ++ 0#56) = .ok .latch := by decide

/-- The frame row `0MVBGRNEdddddddd`: M, V, G and R_N 1, digit 8 flag 1 is frame 0x6D00 (vector V6). -/
theorem test_decode_frame :
    decodeFrame .standard (0#1 ++ 1#1 ++ 1#1 ++ 0#1 ++ 1#1 ++ 1#1 ++ 0#1 ++ 1#1 ++ 0#8) = .ok (.tubeFrame 0x6D 0x00) ∧
    decodeFrame .standard 0x8000 = .error .spareBitSet := by decide

/-- The second layout: `P_D8`, `P_HV`, `M_G` and `M_R`, `P_COMMA` 1 and `P_SPARE` 0 is frame 0x9B00 (section 2.1). -/
theorem test_decode_frame_other_layout :
    decodeFrame otherLayout (1#1 ++ 0#1 ++ 0#1 ++ 1#1 ++ 1#1 ++ 0#1 ++ 1#1 ++ 1#1 ++ 0#8) =
      .ok (.tubeFrame 0x9B 0x00) ∧
    decodeFrame otherLayout 0x2000 = .error .spareBitSet := by decide

/-- The invalid words of section 2.6. -/
theorem test_decode_invalid :
    decodeCommand 0x0000000000000000 = .error .reservedOpcode ∧
    decodeCommand 0x0800000000000000 = .error .reservedOpcode ∧
    decodeCommand 0x0300000000000001 = .error .reservedBitSet ∧
    decodeCommand 0x01000000007701C8 = .error .reservedBitSet ∧
    decodeCommand 0x0100000000A60000 = .error .reservedDigitCode ∧
    decodeCommand 0x0100000000900000 = .error .reservedColorCode ∧
    decodeCommand 0x0200000000000001 = .error .reservedColorCode ∧
    decodeCommand 0x0200000000160001 = .error .reservedBitSet := by decide

/-- The words of section 2.6 from their operations. -/
theorem test_encode_words :
    encode (.setTube 0 (.figure 7) .red true false 200) = .command 0x01000000007700C8 ∧
    encode (.setTube 4294967295 (.figure 0) .blue false false 0) = .command 0x01FFFFFFFF020000 ∧
    encode (.setNumber (-7) .white true 50) = .command 0x02FFFFFFF9090032 ∧
    encode (.setNumber (-2147483648) .red false 1) = .command 0x0280000000060001 ∧
    encode (.setBrightness 51) = .command 0x0500000000000033 ∧ encode .latch = .command 0x0700000000000000 := by
  decide

/-! ENCODE: vectors V1, V5 to V9, V11, V13 and the second layout (section 2.1). -/

theorem test_encode_default_layout :
    encodeTube .standard TubeState.dflt = ⟨0x20, 0x00⟩ ∧
    encodeTube .standard (tube (.figure 9) .white true false 0) = ⟨0x22, 0x00⟩ ∧
    encodeTube .standard (tube (.figure 8) .blue true true 100) = ⟨0x6D, 0x00⟩ ∧
    encodeTube .standard (tube (.figure 9) .redGreen false true 0) = ⟨0x52, 0x00⟩ ∧
    encodeTube .standard (tube (.figure 0) .red true false 0) = ⟨0x38, 0x01⟩ ∧
    encodeTube .standard (tube (.figure 7) .blueGreen true true 255) = ⟨0x64, 0x80⟩ ∧
    encodeTube .standard (tube (.figure 5) .green false false 0) = ⟨0x14, 0x20⟩ ∧
    encodeTube .standard (tube (.figure 8) .redBlue false false 0) = ⟨0x09, 0x00⟩ := by decide

theorem test_encode_other_layout :
    encodeTube otherLayout (tube (.figure 8) .blue true true 0) = ⟨0x9B, 0x00⟩ ∧
    encodeTube otherLayout TubeState.dflt = ⟨0x08, 0x00⟩ ∧
    encodeTube otherLayout (tube (.figure 9) .red false false 0) = ⟨0x46, 0x00⟩ ∧
    encodeTube otherLayout (tube (.figure 3) .redGreen true false 0) = ⟨0x0C, 0x08⟩ := by decide

/-! The serial driver: S1, S3, and the frame of P4. -/

theorem test_shiftByte_A5 :
    after (exec (.shiftByte 0xA5) (bench 1 true)) (fun t => (Trace.dataLevels t.trace, t.dat, t.clk, t.trace.length)) =
      some ([true, false, true, false, false, true, false, true], true, false, 48) := by decide

theorem test_latch_captures :
    after (exec .latch { bench 1 true with sr := List.replicate 16 true })
      (fun t => (t.store, t.lat, t.trace)) =
      some (List.replicate 16 true, true, [.lat false, .wait .tLatch, .lat true]) := by decide

theorem test_tubeFrame_order :
    after (exec (.tubeFrame 0xA5 0x01) (bench 1 true)) (fun t => Trace.dataLevels t.trace) =
      some [true, false, true, false, false, true, false, true,
        false, false, false, false, false, false, false, true] := by decide

/-! The brightness gate: B4 and B8. -/

theorem test_brightness_pwm :
    after (exec (.setBrightness 51) (bench 1 true)) (fun t => (t.dutyLevel, t.trace)) =
      some (51, [.duty 51]) := by decide

theorem test_brightness_digital :
    after (exec (.setBrightness 200) (bench 1 false)) (fun t => (t.dutyLevel, t.trace)) =
      some (255, [.diag 200]) := by decide

/-! The buffer: T1, T2, N4, N10. -/

theorem test_setTube_T1 :
    after (exec (.setTube 1 (.figure 8) .blue true true 100) (bench 2 true)) (fun t => (t.buf, t.trace)) =
      some ([TubeState.dflt, tube (.figure 8) .blue true true 100], []) := by decide

theorem test_setTube_T2 :
    after (exec (.setTube 2 (.figure 5) .red true false 9) (bench 2 true)) (fun t => t.buf) =
      some [TubeState.dflt, TubeState.dflt] := by decide

theorem test_setNumber_N4 :
    after (exec (.setNumber 137 .green false 200) (bench 2 true)) (fun t => t.buf) =
      some [tube (.figure 7) .green true false 200, tube (.figure 3) .green true false 200] := by decide

theorem test_setNumber_N10 :
    after (exec (.setNumber (-2147483648) .red false 1) (bench 12 true)) (fun t => t.buf.map (·.digit)) =
      some [.figure 8, .figure 4, .figure 6, .figure 3, .figure 8, .figure 4, .figure 7, .figure 4, .figure 1,
        .figure 2, .blank, .blank] := by decide

/-! The render: R-2 and R-4. -/

theorem test_render_R2 :
    after (exec .render { bench 2 true with
        buf := [tube (.figure 1) .white true false 10, tube (.figure 2) .white true false 250] })
      (fun t => (Trace.brightnessLevels t.trace, t.dutyLevel, t.trace.length, shown t 1, shown t 0)) =
      some ([250, 10], 10, 197, 0x2004, 0x2002) := by decide +kernel

theorem test_clear_R4 :
    after (exec .clear { bench 3 false with buf := List.replicate 3 (tube (.figure 1) .red false true 9) })
      (fun t => (t.isCommitted, t.dutyLevel, Trace.brightnessLevels t.trace, shown t 2, t.buf)) =
      some (true, 255, [0, 0, 0], 0x2000, List.replicate 3 TubeState.dflt) := by decide +kernel

/-! The port and construction: an invalid word, P5, the degraded construction of P3, and a cut operation (U7). -/

theorem test_step_invalid_word :
    after (step { bench 2 true with input := [.present (.command 0x0300000000000001)] })
      (fun t => (t.cmdInvalid, t.trace, t.buf)) = some (true, [], [TubeState.dflt, TubeState.dflt]) := by decide

theorem test_step_initFatal :
    after (step { bench 2 true with input := [.construct (params 2 true false)] })
      (fun t => ((ports t).cmdReady, (ports t).initStatus, t.trace)) = some (false, 2, []) := by decide

theorem test_step_degraded :
    after (step { bench 2 true with input := [.construct (params 3 false true)] })
      (fun t => (t.backend, t.initStatus, t.lat, t.trace, t.buf.length)) =
      some (.digital, .degraded, true, [.en true], 3) := by decide

theorem test_step_cut_short :
    after (step { bench 2 true with input := [.cutShort (.command 0x0700000000000000) 1 (params 2 true true)] })
      (fun t => (t.trace, t.lat, t.busy, t.upc)) = some ([.lat false, .duty 255], true, false, 0) := by decide

/-- The next step runs the word that `withFetchWord` places, from reset. -/
theorem test_withFetchWord :
    after (step (State.reset.withFetchWord 64 0x0500000000000033)) (fun t => (t.dutyLevel, t.trace)) =
      some (51, [.duty 255, .duty 51]) := by decide

/-! Witnesses: for each statement with hypotheses, a concrete state and operands that meet all of them together. -/

theorem bench_consistent (pwm : Bool) : (bench 2 pwm).Consistent := by
  cases pwm <;> constructor <;> decide

/-- Each instruction runs on the bench. -/
theorem bench_runs (i : Instr) (pwm : Bool) : ∃ t, exec i (bench 2 pwm) = .next t :=
  ⟨_, (exec_eq_runPlan i _).trans (runPlan_ready _ (by cases pwm <;> decide))⟩

/-- The machine `InitFatal` leaves. -/
def abortedBench : State := raiseInitFatal { bench 2 true with cfg := params 2 true false }

theorem witness_ControlByteFlagBits : CtlLayout.standard.Valid ∧ otherLayout.Valid := by decide
theorem witness_ControlByteColourBits : CtlLayout.standard.Valid ∧ otherLayout.Valid := by decide

/-- One witness a clause, at the ends of the ranges: digits 0 and 7, then 8, 9 and `BLANK`. -/
theorem witness_DigitByteOneHot :
    ((tube (.figure 0) .red true false 0).digit = .figure 0 ∧ (0 : Fin 10).val ≤ 7) ∧
    ((tube (.figure 7) .red true false 0).digit = .figure 7 ∧ (7 : Fin 10).val ≤ 7) ∧
    (tube (.figure 8) .red true false 0).digit = .figure 8 ∧
    (tube (.figure 9) .red true false 0).digit = .figure 9 ∧ TubeState.dflt.digit = .blank := by decide

theorem witness_CommaBitSpareBitAndBrightness : otherLayout.Valid := by decide

theorem witness_DigitSelectExclusive :
    CtlLayout.standard.Valid ∧
    (encodeTube .standard (tube (.figure 8) .red true false 0)).ctl.getLsbD (CtlLayout.standard.pD8).val = true ∧
    (encodeTube .standard (tube (.figure 9) .red true false 0)).ctl.getLsbD (CtlLayout.standard.pD9).val = true ∧
    (encodeTube .standard (tube (.figure 7) .red true false 0)).dig.getLsbD 7 = true := by decide

theorem witness_ColoursGiveDistinctControlBytes : CtlLayout.standard.Valid ∧ Color.white ≠ Color.redBlue := by decide

theorem witness_FrameFieldsIndependent :
    CtlLayout.standard.Valid ∧ (tube (.figure 1) .red true false 3).voltageEnabled = TubeState.dflt.voltageEnabled ∧
    (tube (.figure 1) .red true false 3).comma = TubeState.dflt.comma ∧
    (tube (.figure 1) .white false true 3).color = TubeState.dflt.color ∧
    (tube .blank .red false true 3).digit = TubeState.dflt.digit := by decide

theorem witness_FrameDeterminesVisibleFields : CtlLayout.standard.Valid ∧ otherLayout.Valid := by decide

theorem witness_FrameShapesNeverProduced :
    CtlLayout.standard.Valid ∧ encodeTube .standard TubeState.dflt = ⟨0x20, 0x00⟩ := by decide

theorem witness_ShiftByteCompletes : (bench 2 true).cmdReady = true := by decide
theorem witness_ShiftByteFeedsTheChain : (bench 2 true).cmdReady = true ∧ (bench 2 true).clk = false := by decide
theorem witness_ShiftByteEmitsFortyEightEvents : (bench 2 true).cmdReady = true := by decide
theorem witness_LatchCompletes : (bench 2 true).cmdReady = true := by decide

/-- Both levels the line can have. -/
theorem witness_LatchEdges :
    ((bench 2 true).cmdReady = true ∧ (bench 2 true).lat = false) ∧
    (State.cmdReady { bench 2 true with lat := true } = true) := by decide

theorem witness_TubeFrameIsTwoShiftBytes : (bench 2 true).cmdReady = true := by decide
theorem witness_SetBrightnessOnPwm : (bench 2 true).cmdReady = true ∧ (bench 2 true).backend = .pwm := by decide
theorem witness_SetBrightnessOnDigital :
    (bench 2 false).cmdReady = true ∧ (bench 2 false).backend = .digital := by decide

theorem witness_DigitalBackendNeverDims :
    (bench 2 false).backend = .digital ∧ ∃ t, exec (.setBrightness 7) (bench 2 false) = .next t :=
  ⟨by decide, bench_runs _ false⟩

/-- The first and the last index in range. -/
theorem witness_SetTubeWritesOneEntry :
    (bench 2 true).cmdReady = true ∧ Memory.wf (bench 2 true).cfg.numTubes (bench 2 true).buf ∧
    0 < (bench 2 true).cfg.numTubes ∧ 1 < (bench 2 true).cfg.numTubes := by decide

/-- The first index out of range. -/
theorem witness_SetTubeOutOfRangeAbsorbed :
    (bench 2 true).cmdReady = true ∧ (bench 2 true).upc = 0 ∧ (bench 2 true).cfg.numTubes ≤ 2 := by decide

/-- The numeral of 137, and that of 0. -/
theorem witness_SetNumberWritesTheNumeral :
    (bench 2 true).cmdReady = true ∧
    [7, 3, 1] = (if (137 : Int).natAbs = 0 then [0] else Nat.digits 10 (137 : Int).natAbs) ∧
    [0] = (if (0 : Int).natAbs = 0 then [0] else Nat.digits 10 (0 : Int).natAbs) :=
  ⟨by decide, by norm_num, by norm_num⟩

/-- The least number too long for two tubes. -/
theorem witness_SetNumberKeepsLowDigits : 10 ^ (bench 2 true).cfg.numTubes ≤ (100 : Int).natAbs := by decide

theorem witness_RenderSendsTheTubesInOrder :
    (bench 2 true).cmdReady = true ∧ Memory.wf (bench 2 true).cfg.numTubes (bench 2 true).buf := by decide

theorem witness_RenderCompletes :
    (bench 2 true).cmdReady = true ∧ Memory.wf (bench 2 true).cfg.numTubes (bench 2 true).buf := by decide

theorem witness_RenderWireOrder :
    (bench 2 true).cmdReady = true ∧ (bench 2 true).Consistent ∧ (bench 2 true).buf[1]? = some TubeState.dflt :=
  ⟨by decide, bench_consistent true, by decide⟩

/-- Both backends. -/
theorem witness_RenderShowsTheBuffer :
    ((bench 2 true).cmdReady = true ∧ (bench 2 true).Consistent ∧ (bench 2 true).backend = .pwm) ∧
    ((bench 2 false).cmdReady = true ∧ (bench 2 false).Consistent ∧ (bench 2 false).backend = .digital) :=
  ⟨⟨by decide, bench_consistent true, by decide⟩, by decide, bench_consistent false, by decide⟩

theorem witness_RenderCounts :
    (bench 2 true).cmdReady = true ∧ Memory.wf (bench 2 true).cfg.numTubes (bench 2 true).buf ∧
    (bench 2 true).clk = false := by decide

/-- Two states that differ in their lines and their duty only. -/
theorem witness_RenderEventsDependOnBufferOnly :
    (bench 2 true).cmdReady = true ∧
    State.cmdReady { bench 2 true with dat := true, dutyLevel := 9, lat := true } = true := by decide

theorem witness_RenderBrightnessLastWriteWins :
    ((bench 2 true).cmdReady = true ∧ (bench 2 true).buf[0]? = some TubeState.dflt ∧ (bench 2 true).backend = .pwm) ∧
    ((bench 2 false).cmdReady = true ∧ (bench 2 false).backend = .digital) := by decide

theorem witness_ClearCompletes : (bench 1 true).cmdReady = true ∧ 1 ≤ (bench 1 true).cfg.numTubes := by decide

theorem witness_OperationDurations :
    (bench 2 true).cmdReady = true ∧ Memory.wf (bench 2 true).cfg.numTubes (bench 2 true).buf := by decide

theorem witness_OnlySettersWriteTheBuffer : ∃ t, exec .render (bench 2 true) = .next t :=
  bench_runs _ true

theorem witness_OnlyRendersCommit :
    (bench 2 true).cmdReady = true ∧ (∃ t, exec .clear (bench 2 true) = .next t) ∧
    ∃ t, exec .latch (bench 2 true) = .next t :=
  ⟨by decide, bench_runs .clear true, bench_runs .latch true⟩

theorem witness_OnlyLatchesChangeTheDisplay : ∃ t, exec (.shiftByte 0xA5) (bench 2 true) = .next t :=
  bench_runs _ true

theorem witness_LinesAtRestBetweenOperations :
    (bench 2 true).cmdReady = true ∧ (bench 2 true).clk = false ∧ ∃ t, exec .latch (bench 2 true) = .next t :=
  ⟨by decide, by decide, bench_runs _ true⟩

theorem witness_OperationsKeepTheConstruction :
    (bench 2 true).cmdReady = true ∧ ∃ t, exec .render (bench 2 true) = .next t :=
  ⟨by decide, bench_runs _ true⟩

/-- The first event and the last of a latch. -/
theorem witness_OperationIsItsEventsOneByOne :
    (bench 2 true).cmdReady = true ∧ (bench 2 true).Consistent ∧
    (planOf .latch (bench 2 true)).events[0]? = some (.lat false) ∧
    (planOf .latch (bench 2 true)).events[2]? = some (.lat true) :=
  ⟨by decide, bench_consistent true, by decide, by decide⟩

/-- The ends of the operand ranges. -/
theorem witness_DecodeAfterEncode :
    (Instr.setTube (2 ^ 32 - 1) .blank .blueGreen true true 255).wf .standard = true ∧
    (Instr.setNumber (-(2 ^ 31)) .blue false 0).wf .standard = true ∧
    (Instr.setNumber (2 ^ 31 - 1) .blue true 0).wf .standard = true ∧
    (Instr.tubeFrame 0x7F 0xFF).wf .standard = true ∧ (Instr.tubeFrame 0xDF 0xFF).wf otherLayout = true := by decide

theorem witness_EncodeAfterDecode :
    decode .standard (.command 0x0700000000000000) = .ok .latch ∧
    decode .standard (.frame 0x7FFF) = .ok (.tubeFrame 0x7F 0xFF) ∧
    decode otherLayout (.frame 0xDFFF) = .ok (.tubeFrame 0xDF 0xFF) := by decide

/-- The bench at the second layout, with the frame 0x9B00 of its vector on the frame path. -/
def otherBench : State :=
  { bench 2 true with
    cfg := { params 2 true true with layout := otherLayout }, input := [.present (.frame 0x9B00)] }

theorem witness_EveryTubeFrameRuns :
    otherBench.cfg.layout.Valid ∧
    otherBench.input = [.present (.frame (encodeTube otherLayout (tube (.figure 8) .blue true true 0)).word)] := by
  decide

theorem test_frame_of_other_layout_runs :
    after (step otherBench) (fun t => Trace.dataLevels t.trace) =
      some ([true, false, false, true, true, false, true, true] ++ List.replicate 8 false) := by decide

theorem witness_CommandRowsDisjoint :
    ({ op := .render, pattern := 0x0300000000000000, mask := 0xFFFFFFFFFFFFFFFF } : CommandRow) ∈ commandRows ∧
    ({ op := .render, pattern := 0x0300000000000000, mask := 0xFFFFFFFFFFFFFFFF } : CommandRow).selects
      0x0300000000000000 = true := by decide

theorem witness_StepPerformsThePresentedWord :
    State.input { bench 2 true with input := [.present (.command 0x0300000000000000)] } =
      [.present (.command 0x0300000000000000)] ∧
    decode (bench 2 true).cfg.layout (.command 0x0300000000000000) = .ok .render := by decide

theorem witness_StepAbsorbsAnInvalidWord :
    (bench 2 true).cmdReady = true ∧
    State.input { bench 2 true with input := [.present (.command 0)] } = [.present (.command 0)] ∧
    decodeCommand 0 = .error .reservedOpcode := by decide

/-- Not ready because the block is busy, and because it was never constructed. -/
theorem witness_NothingAcceptedWhileNotReady :
    State.cmdReady { bench 2 true with busy := true } = false ∧ abortedBench.cmdReady = false ∧
    State.input { abortedBench with input := [.present (.command 0x0300000000000000)] } =
      [.present (.command 0x0300000000000000)] := by decide

theorem witness_IdleStepHoldsTheLines :
    (bench 2 true).input = [] ∧ State.input { bench 2 true with input := [.idle] } = [.idle] := by decide

/-- Both straps. -/
theorem witness_ConstructionResult :
    State.input { bench 2 true with input := [.construct (params 3 true true)] } = [.construct (params 3 true true)] ∧
    (params 3 true true).Valid ∧ (params 3 true true).linesAvailable = true ∧
    (params 1 false true).Valid ∧ (params 1 false true).linesAvailable = true := by decide

theorem witness_InitFatalAcceptsNothing :
    State.input { bench 2 true with input := [.construct (params 2 true false)] } = [.construct (params 2 true false)] ∧
    (params 2 true false).Valid ∧ (params 2 true false).linesAvailable = false ∧
    (params 2 false false).Valid ∧ (params 2 false false).linesAvailable = false := by decide

theorem witness_ResetCutsAnOperationShort :
    State.input { bench 2 true with
      input := [.cutShort (.command 0x0700000000000000) 1 (params 2 true true)] } =
      [.cutShort (.command 0x0700000000000000) 1 (params 2 true true)] ∧
    (bench 2 true).cmdReady = true ∧ decode (bench 2 true).cfg.layout (.command 0x0700000000000000) = .ok .latch ∧
    (params 2 true true).Valid ∧ (params 2 true true).linesAvailable = true := by decide

theorem witness_StepRefusals :
    (State.input { bench 2 true with input := [.construct (params 0 true true)] } =
      [.construct (params 0 true true)] ∧ ¬ (params 0 true true).Valid) ∧
    (State.input { bench 2 true with input := [.present (.frame 0x8000)] } = [.present (.frame 0x8000)] ∧
      (0x8000#16).getLsbD (8 + (bench 2 true).cfg.layout.pSpare) = true) ∧
    (0x2000#16).getLsbD (8 + otherBench.cfg.layout.pSpare) = true := by decide

theorem witness_StepKeepsConsistent : (bench 2 true).Consistent ∧ ∃ t, step (bench 2 true) = .next t :=
  ⟨bench_consistent true, _, rfl⟩

end Sys2Proof.Tests
end

section
/-! PROOFS. What the encoder puts in its flag bits and in its digit byte (rules R91, R93, R94, R96, R99). -/

namespace Sys2Proof

/-- The positions of a valid layout that are no colour line. -/
def CtlLayout.flagPositions (l : CtlLayout) : List (Fin 8) := [l.pD8, l.pD9, l.pHV, l.pComma, l.pSpare]

theorem CtlLayout.Valid.colour_ne_flag {l : CtlLayout} (h : l.Valid) {q : Fin 8} (hq : q ∈ l.flagPositions) :
    l.pR ≠ q ∧ l.pG ≠ q ∧ l.pB ≠ q := by
  simp only [CtlLayout.flagPositions, List.mem_cons, List.not_mem_nil, or_false] at hq
  simp only [CtlLayout.Valid, CtlLayout.positions, List.nodup_cons, List.mem_cons, not_or] at h
  grind

theorem CtlLayout.Valid.flags_ne {l : CtlLayout} (h : l.Valid) :
    (l.pD8 ≠ l.pD9 ∧ l.pD8 ≠ l.pHV ∧ l.pD8 ≠ l.pComma) ∧ (l.pD9 ≠ l.pHV ∧ l.pD9 ≠ l.pComma) ∧
      l.pHV ≠ l.pComma := by
  simp only [CtlLayout.Valid, CtlLayout.positions, List.nodup_cons, List.mem_cons, not_or] at h
  tauto

end Sys2Proof

namespace Sys2Proof.Machine

/-- No colour clears a bit that is not a colour line, and the base pattern has it 0: such a bit of the control byte is
what the digit flags, the voltage and the comma set. -/
theorem controlByte_bit_of_flag {l : CtlLayout} (t : TubeState) (h : l.Valid) {q : Fin 8} (hq : q ∈ l.flagPositions) :
    (controlByte l t).getLsbD q.val =
      (decide (t.digit = .figure 8) && decide (l.pD8 = q) || decide (t.digit = .figure 9) && decide (l.pD9 = q) ||
        t.voltageEnabled && decide (l.pHV = q) || t.comma && decide (l.pComma = q)) := by
  obtain ⟨hR, hG, hB⟩ := h.colour_ne_flag hq
  rw [controlByte_bit, clearMask_bit]
  simp [hR, hG, hB]

section
variable {l : CtlLayout} (t : TubeState) (h : l.Valid)
include h

theorem controlByte_pD8 : (controlByte l t).getLsbD l.pD8 = decide (t.digit = .figure 8) := by
  obtain ⟨⟨h9, hHV, hComma⟩, -, -⟩ := h.flags_ne
  rw [controlByte_bit_of_flag t h (by simp [CtlLayout.flagPositions])]
  simp [h9.symm, hHV.symm, hComma.symm]

theorem controlByte_pD9 : (controlByte l t).getLsbD l.pD9 = decide (t.digit = .figure 9) := by
  obtain ⟨⟨h8, -, -⟩, ⟨hHV, hComma⟩, -⟩ := h.flags_ne
  rw [controlByte_bit_of_flag t h (by simp [CtlLayout.flagPositions])]
  simp [h8, hHV.symm, hComma.symm]

theorem controlByte_pHV : (controlByte l t).getLsbD l.pHV = t.voltageEnabled := by
  obtain ⟨⟨-, h8, -⟩, ⟨h9, -⟩, hComma⟩ := h.flags_ne
  rw [controlByte_bit_of_flag t h (by simp [CtlLayout.flagPositions])]
  simp [h8, h9, hComma.symm]

end

theorem digitByte_figure_of_le {d : Fin 10} (h : d.val ≤ 7) : digitByte (.figure d) = 1#8 <<< d.val := by
  simp [digitByte, h]

theorem digitByte_bit_of_le {d : Fin 10} (h : d.val ≤ 7) (k : Nat) :
    (digitByte (.figure d)).getLsbD k = decide (k = d.val) := by
  rw [digitByte_figure_of_le h, ← BitVec.twoPow_eq, BitVec.getLsbD_twoPow]
  simp [show d.val < 8 by omega, eq_comm]

/-- Settles O1: outside the colour lines a bit of the control byte is 1 exactly on the condition of its own field. -/
theorem controlByteFlagBits : Obligations.ControlByteFlagBits := fun _ t h =>
  ⟨controlByte_pD8 t h, controlByte_pD9 t h, controlByte_pHV t h⟩

/-- Settles O3: one bit by the shift for 0..7, the zero branch of `digitByte` for 8, 9 and `BLANK`. -/
theorem digitByteOneHot : Obligations.DigitByteOneHot := by
  intro l t
  constructor
  · intro d hd hle
    simp only [encodeTube, hd]
    exact ⟨digitByte_figure_of_le hle, digitByte_bit_of_le hle⟩
  · rintro (hd | hd | hd) <;> simp only [encodeTube, hd] <;> rfl

end Sys2Proof.Machine
end

section
/-! PROOFS. `SET_BRIGHTNESS` performed to completion (rules R126, R127). -/

namespace Sys2Proof.Machine

/-- Rule R126: only the PWM backend takes the level; the backend's one event goes on the trace. -/
theorem exec_setBrightness_of_ready (level : Byte) {s : State} (h : s.cmdReady = true) :
    exec (.setBrightness level) s =
      .next { s with
        dutyLevel := dutyAfter s.backend level s.dutyLevel
        trace := s.trace ++ brightnessEvents s.backend level, upc := 0, busy := false } := by
  rw [exec_eq_runPlan, runPlan_ready _ h]
  simp only [planOf, planSetBrightness, emitAll_brightnessEvents]
  rfl

/-- Settles O17: on the PWM backend the one event is `DUTY(level)`, whose effect is the write of the level. -/
theorem setBrightnessOnPwm : Obligations.SetBrightnessOnPwm := by
  intro level s hready hpwm
  rw [exec_setBrightness_of_ready level hready]
  simp only [hpwm, dutyAfter, if_true, brightnessEvents]

end Sys2Proof.Machine
end

section
/-! PROOFS. The staging setters: an index out of range stages nothing (rule R141), a number is staged by its magnitude
(rule R147). -/

namespace Sys2Proof.Machine

/-- A plan that keeps the buffer, emits nothing and commits nothing leaves a state at rest (`upc = 0`, rule R22) as it
was. -/
theorem runPlan_inert {s : State} (hready : s.cmdReady = true) (hupc : s.upc = 0) :
    runPlan { buf := s.buf, events := [], commits := false } s = .next s := by
  obtain ⟨hbusy, -⟩ := (cmdReady_iff s).mp hready
  have hrest : { s with upc := 0, busy := false } = s := by rw [← hupc, ← hbusy]
  rw [runPlan_silent _ hready rfl]
  simpa using hrest

theorem planSetTube_of_out_of_range {index : Nat} {s : State} (h : s.cfg.numTubes ≤ index) (t : TubeState) :
    planSetTube index t s = { buf := s.buf, events := [], commits := false } := by
  have hout : indexInRange s index = false := by simpa [indexInRange] using h
  simp [planSetTube, hout]

theorem planSetNumber_neg (value : Int) (c : Color) (z : Bool) (b : Byte) (s : State) :
    planSetNumber (-value) c z b s = planSetNumber value c z b s := by
  simp only [planSetNumber, Int.natAbs_neg]

/-- Settles O22: out of range the plan is inert, and a ready block at rest already has `busy` and `upc` at 0. -/
theorem setTubeOutOfRangeAbsorbed : Obligations.SetTubeOutOfRangeAbsorbed := by
  intro index d c v m b s hready hupc hout
  rw [exec_eq_runPlan, planOf, planSetTube_of_out_of_range hout, runPlan_inert hready hupc]

/-- Settles O24: `v` and `-v` have one magnitude, so one plan, whether or not the block is ready to perform it. -/
theorem setNumberDropsTheSign : Obligations.SetNumberDropsTheSign := by
  intro value c z b s
  rw [exec_eq_runPlan, exec_eq_runPlan, planOf, planOf, planSetNumber_neg]

end Sys2Proof.Machine
end

section
/-! PROOFS. Every operation answers a next state (rule R174). -/

namespace Sys2Proof.Machine

/-- A plan is performed to completion where the block is ready, and not accepted where it is not (rule R61); neither
answer is a fault or a refusal. -/
theorem runPlan_answers_next (p : Plan) (s : State) : ∃ t, runPlan p s = .next t := by
  obtain ⟨-, hdone⟩ | ⟨-, hignored⟩ := runPlan_cases (p := p) (s := s) rfl
  · exact ⟨_, hdone⟩
  · exact ⟨_, hignored⟩

/-- Settles O39: every instruction is the performance of its plan, which answers a next state, ready or not. -/
theorem operationsNeverRaise : Obligations.OperationsNeverRaise := by
  intro i s
  rw [exec_eq_runPlan]
  exact runPlan_answers_next (planOf i s) s

end Sys2Proof.Machine
end

section
/-! PROOFS. The rows of the match and mask table by the fields of rule R64, and the decoder and the encoder as inverse
functions of each other (rules R63 to R68, R70). -/

namespace Sys2Proof

/-- The bits 14:8, reserved in every row of rule R64. -/
def reservedField (w : CommandWord) : BitVec 7 := w.extractLsb' 8 7

/-- Two words are equal when each of their fields is. -/
theorem commandWord_eq_iff (w v : CommandWord) :
    w = v ↔ opcodeField w = opcodeField v ∧ wideField w = wideField v ∧ digitField w = digitField v ∧
      colorField w = colorField v ∧ bit16Field w = bit16Field v ∧ commaField w = commaField v ∧
      reservedField w = reservedField v ∧ byteField w = byteField v := by
  constructor
  · rintro rfl
    simp
  · rintro ⟨hop, hwide, hdigit, hcolor, h16, hcomma, hreserved, hbyte⟩
    simp only [reservedField] at hreserved
    rw [commandWord_eq_fields w, commandWord_eq_fields v, hop, hwide, hdigit, hcolor, h16, hcomma, hreserved, hbyte]

/-! A mask acts on each field by itself. -/

section
variable (w m : CommandWord)

theorem opcodeField_and : opcodeField (w &&& m) = opcodeField w &&& opcodeField m := BitVec.extractLsb'_and
theorem wideField_and : wideField (w &&& m) = wideField w &&& wideField m := BitVec.extractLsb'_and
theorem digitField_and : digitField (w &&& m) = digitField w &&& digitField m := BitVec.extractLsb'_and
theorem colorField_and : colorField (w &&& m) = colorField w &&& colorField m := BitVec.extractLsb'_and
theorem bit16Field_and : bit16Field (w &&& m) = (bit16Field w && bit16Field m) := BitVec.getLsbD_and
theorem commaField_and : commaField (w &&& m) = (commaField w && commaField m) := BitVec.getLsbD_and
theorem reservedField_and : reservedField (w &&& m) = reservedField w &&& reservedField m := BitVec.extractLsb'_and
theorem byteField_and : byteField (w &&& m) = byteField w &&& byteField m := BitVec.extractLsb'_and

end

/-- The word of an operation that has, in the fields its row leaves free, the bits of `w`. -/
def rowWord : Opcode → CommandWord → CommandWord
  | .setTube, w =>
    packCommand 0x01 (wideField w) (digitField w) (colorField w) (bit16Field w) (commaField w) (byteField w)
  | .setNumber, w => packCommand 0x02 (wideField w) 0 (colorField w) (bit16Field w) false (byteField w)
  | .render, _ => packCommand 0x03 0 0 0 false false 0
  | .clear, _ => packCommand 0x04 0 0 0 false false 0
  | .setBrightness, w => packCommand 0x05 0 0 0 false false (byteField w)
  | .shiftByte, w => packCommand 0x06 0 0 0 false false (byteField w)
  | .latch, _ => packCommand 0x07 0 0 0 false false 0

@[simp] theorem reservedField_pack (op : BitVec 8) (wide : BitVec 32) (digit : BitVec 4) (color : BitVec 3)
    (b16 b15 : Bool) (low : Byte) : reservedField (packCommand op wide digit color b16 b15 low) = 0 := by
  simp only [reservedField, packCommand]
  ext i hi
  simp only [BitVec.getElem_extractLsb', BitVec.getLsbD_append]
  grind

theorem and_ones {n : Nat} {m : BitVec n} (h : m = BitVec.allOnes n) (x : BitVec n) : x &&& m = x := by
  rw [h, BitVec.and_allOnes]

/-- A row's mask leaves each field whole or takes it away, so the row says which fields are its own and which are
free. -/
theorem selects_iff {r : CommandRow} (hr : r ∈ commandRows) (w : CommandWord) :
    r.selects w = true ↔ w = rowWord r.op w := by
  rw [CommandRow.selects, beq_iff_eq, commandWord_eq_iff, commandWord_eq_iff w]
  simp only [opcodeField_and, wideField_and, digitField_and, colorField_and, bit16Field_and, commaField_and,
    reservedField_and, byteField_and]
  simp only [commandRows, List.mem_cons, List.not_mem_nil, or_false] at hr
  rcases hr with rfl | rfl | rfl | rfl | rfl | rfl | rfl <;> simp [rowWord] <;>
    simp [opcodeField, wideField, digitField, colorField, bit16Field, commaField, reservedField, byteField, and_ones]

/-! Selecting an operation. -/

/-- Every row fixes the opcode. -/
theorem opcodeField_of_selects {r : CommandRow} {w : CommandWord} (hr : r ∈ commandRows) (h : r.selects w = true) :
    opcodeField w = opcodeField r.pattern := by
  have hmask : ∀ q ∈ commandRows, opcodeField q.mask = BitVec.allOnes 8 := by decide
  rw [CommandRow.selects, beq_iff_eq] at h
  rw [← h, opcodeField_and, and_ones (hmask r hr)]

/-- The rows have different opcodes. -/
theorem commandRow_eq_of_opcode :
    ∀ r ∈ commandRows, ∀ q ∈ commandRows, opcodeField r.pattern = opcodeField q.pattern → r = q := by decide

/-- Settles O44: a row that selects a word has the word's opcode, and the rows have different opcodes. -/
theorem commandRowsDisjoint : Obligations.CommandRowsDisjoint := by
  intro w r q hr hq hrw hqw
  exact commandRow_eq_of_opcode r hr q hq
    ((opcodeField_of_selects hr hrw).symm.trans (opcodeField_of_selects hq hqw))

theorem exists_commandRow : ∀ o : Opcode, ∃ r ∈ commandRows, r.op = o := by
  intro o
  cases o <;> decide

theorem selects_of_find? {w : CommandWord} {r : CommandRow} (h : commandRows.find? (·.selects w) = some r) :
    r ∈ commandRows ∧ r.selects w = true :=
  ⟨List.mem_of_find?_eq_some h, List.find?_some (p := fun r : CommandRow => r.selects w) h⟩

theorem selectOpcode_of_selects {r : CommandRow} {w : CommandWord} (hr : r ∈ commandRows) (h : r.selects w = true) :
    selectOpcode w = some r.op := by
  have hfound : (commandRows.find? (·.selects w)).isSome := List.find?_isSome.mpr ⟨r, hr, h⟩
  obtain ⟨q, hq⟩ := Option.isSome_iff_exists.mp hfound
  obtain ⟨hmem, hsel⟩ := selects_of_find? hq
  rw [selectOpcode, hq, commandRowsDisjoint w r q hr hmem h hsel]
  rfl

/-- An operation is selected exactly by the words that are its own in the fields its row fixes. -/
theorem selectOpcode_eq_some_iff (w : CommandWord) (o : Opcode) : selectOpcode w = some o ↔ w = rowWord o w := by
  constructor
  · intro h
    obtain ⟨r, hr, rfl⟩ := Option.map_eq_some_iff.mp h
    obtain ⟨hmem, hsel⟩ := selects_of_find? hr
    exact (selects_iff hmem w).mp hsel
  · intro h
    obtain ⟨r, hr, rfl⟩ := exists_commandRow o
    exact selectOpcode_of_selects hr ((selects_iff hr w).mpr h)

/-! The packed words select their own rows. -/

section
variable (wide : BitVec 32) (digit : BitVec 4) (color : BitVec 3) (b16 b15 : Bool) (low : Byte)

theorem selectOpcode_pack_setTube : selectOpcode (packCommand 0x01 wide digit color b16 b15 low) = some .setTube :=
  (selectOpcode_eq_some_iff _ _).mpr (by simp [rowWord])

theorem selectOpcode_pack_setNumber : selectOpcode (packCommand 0x02 wide 0 color b16 false low) = some .setNumber :=
  (selectOpcode_eq_some_iff _ _).mpr (by simp [rowWord])

theorem selectOpcode_pack_render : selectOpcode (packCommand 0x03 0 0 0 false false 0) = some .render :=
  (selectOpcode_eq_some_iff _ _).mpr rfl

theorem selectOpcode_pack_clear : selectOpcode (packCommand 0x04 0 0 0 false false 0) = some .clear :=
  (selectOpcode_eq_some_iff _ _).mpr rfl

theorem selectOpcode_pack_setBrightness :
    selectOpcode (packCommand 0x05 0 0 0 false false low) = some .setBrightness :=
  (selectOpcode_eq_some_iff _ _).mpr (by simp [rowWord])

theorem selectOpcode_pack_shiftByte : selectOpcode (packCommand 0x06 0 0 0 false false low) = some .shiftByte :=
  (selectOpcode_eq_some_iff _ _).mpr (by simp [rowWord])

theorem selectOpcode_pack_latch : selectOpcode (packCommand 0x07 0 0 0 false false 0) = some .latch :=
  (selectOpcode_eq_some_iff _ _).mpr rfl

end

/-! The codes written back. -/

theorem encodeDigit_of_decodeDigit {c : BitVec 4} {d : Digit} (h : decodeDigit c = some d) : encodeDigit d = c := by
  have hall : ∀ c : BitVec 4, (decodeDigit c).all (fun d => encodeDigit d == c) = true := by decide
  simpa [h] using hall c

theorem encodeColor_of_decodeColor {c : BitVec 3} {k : Color} (h : decodeColor c = some k) : encodeColor k = c := by
  have hall : ∀ c : BitVec 3, (decodeColor c).all (fun k => encodeColor k == c) = true := by decide
  simpa [h] using hall c

theorem frameWord_of_bytes (w : FrameWord) :
    Frame.word { ctl := w.extractLsb' 8 8, dig := w.extractLsb' 0 8 } = w := by
  apply BitVec.eq_of_getLsbD_eq
  intro i hi
  simp only [Frame.word, BitVec.getLsbD_append, BitVec.getLsbD_extractLsb']
  grind

/-! Operands that fit their fields are read back. -/

theorem toNat_ofNat_of_index {index : Nat} (h : index < 2 ^ 32) : (BitVec.ofNat 32 index).toNat = index := by
  rw [BitVec.toNat_ofNat, Nat.mod_eq_of_lt h]

theorem toInt_ofInt_of_value {value : Int} (hlow : -(2 ^ 31) ≤ value) (hhigh : value < 2 ^ 31) :
    (BitVec.ofInt 32 value).toInt = value := by
  rw [BitVec.toInt_ofInt, Int.bmod_eq_of_le (by omega) (by omega)]

/-- Settles O42: the word packed of the operands' codes is selected by its own row, and each field reads its operand
back; a frame word splits into its two bytes. -/
theorem decodeAfterEncode : Obligations.DecodeAfterEncode := by
  intro l i hwf
  cases i with
  | setTube index d c v m b =>
    have hindex : index < 2 ^ 32 := by simpa [Instr.wf] using hwf
    simp only [encode, decode, decodeCommand, selectOpcode_pack_setTube, digitField_pack, colorField_pack,
      decodeDigit_encodeDigit, decodeColor_encodeColor, wideField_pack, bit16Field_pack, commaField_pack,
      byteField_pack, toNat_ofNat_of_index hindex]
  | setNumber value c z b =>
    obtain ⟨hlow, hhigh⟩ : -(2 ^ 31) ≤ value ∧ value < 2 ^ 31 := by simpa [Instr.wf] using hwf
    simp only [encode, decode, decodeCommand, selectOpcode_pack_setNumber, colorField_pack,
      decodeColor_encodeColor, wideField_pack, bit16Field_pack, byteField_pack, toInt_ofInt_of_value hlow hhigh]
  | render => simp only [encode, decode, decodeCommand, selectOpcode_pack_render]
  | clear => simp only [encode, decode, decodeCommand, selectOpcode_pack_clear]
  | setBrightness level => simp only [encode, decode, decodeCommand, selectOpcode_pack_setBrightness, byteField_pack]
  | shiftByte value => simp only [encode, decode, decodeCommand, selectOpcode_pack_shiftByte, byteField_pack]
  | latch => simp only [encode, decode, decodeCommand, selectOpcode_pack_latch]
  | tubeFrame ctl dig =>
    have hspare : ctl.getLsbD l.pSpare = false := by simpa only [Instr.wf, Bool.not_eq_true'] using hwf
    simp only [encode, decode, decodeFrame_word, hspare, Bool.false_eq_true, if_false]

/-! The other direction: everything the decoder admits, and its encoding. -/

/-- Everything the command decoder admits, by the operation the word selects. -/
inductive Admitted (w : CommandWord) : Instr → Prop where
  | setTube {d : Digit} {c : Color} (hw : selectOpcode w = some .setTube) (hd : decodeDigit (digitField w) = some d)
      (hc : decodeColor (colorField w) = some c) :
      Admitted w (.setTube (wideField w).toNat d c (bit16Field w) (commaField w) (byteField w))
  | setNumber {c : Color} (hw : selectOpcode w = some .setNumber) (hc : decodeColor (colorField w) = some c) :
      Admitted w (.setNumber (wideField w).toInt c (bit16Field w) (byteField w))
  | render (hw : selectOpcode w = some .render) : Admitted w .render
  | clear (hw : selectOpcode w = some .clear) : Admitted w .clear
  | setBrightness (hw : selectOpcode w = some .setBrightness) : Admitted w (.setBrightness (byteField w))
  | shiftByte (hw : selectOpcode w = some .shiftByte) : Admitted w (.shiftByte (byteField w))
  | latch (hw : selectOpcode w = some .latch) : Admitted w .latch

theorem decodeCommand_ok_iff (w : CommandWord) (i : Instr) : decodeCommand w = .ok i ↔ Admitted w i := by
  constructor
  · intro h
    unfold decodeCommand at h
    split at h
    · cases h
    · split at h
      · cases h
      · cases h
      · cases h
        exact .setTube ‹_› ‹_› ‹_›
    · split at h
      · cases h
      · cases h
        exact .setNumber ‹_› ‹_›
    all_goals cases h
    · exact .render ‹_›
    · exact .clear ‹_›
    · exact .setBrightness ‹_›
    · exact .shiftByte ‹_›
    · exact .latch ‹_›
  · intro h
    cases h <;> simp only [decodeCommand, *]

/-- The encoding of an admitted operation is the word its row makes of the fields of `w`. -/
theorem Admitted.encode_eq {w : CommandWord} {i : Instr} (h : Admitted w i) : encode i = .command w := by
  have row {o : Opcode} (hw : selectOpcode w = some o) : w = rowWord o w := (selectOpcode_eq_some_iff w o).mp hw
  cases h with
  | setTube hw hd hc =>
    simp only [encode, encodeDigit_of_decodeDigit hd, encodeColor_of_decodeColor hc, BitVec.ofNat_toNat,
      BitVec.setWidth_eq]
    exact congrArg _ (row hw).symm
  | setNumber hw hc =>
    simp only [encode, encodeColor_of_decodeColor hc, BitVec.ofInt_toInt]
    exact congrArg _ (row hw).symm
  | _ hw => exact congrArg PortWord.command (row hw).symm

theorem Admitted.wf {w : CommandWord} {i : Instr} (h : Admitted w i) (l : CtlLayout) : i.wf l = true := by
  cases h with
  | setTube => simpa [Instr.wf] using (wideField w).isLt
  | setNumber =>
    have hlow := (wideField w).le_toInt
    have hhigh := (wideField w).toInt_lt
    simpa [Instr.wf] using And.intro hlow hhigh
  | _ => rfl

/-- Settles O43: what a row fixes and what the codes leave no choice of is exactly what the encoder writes; a frame
word is put together from its two bytes. -/
theorem encodeAfterDecode : Obligations.EncodeAfterDecode := by
  intro l w i h
  cases w with
  | command w =>
    have hadmitted := (decodeCommand_ok_iff w i).mp h
    exact ⟨hadmitted.wf l, hadmitted.encode_eq⟩
  | frame w =>
    simp only [decode, decodeFrame] at h
    split at h
    case isTrue => cases h
    case isFalse hspare =>
      cases h
      constructor
      · simpa only [Instr.wf, BitVec.getLsbD_extractLsb', l.pSpare.isLt, decide_true, Bool.true_and,
          Bool.not_eq_true', Bool.not_eq_true] using hspare
      · exact congrArg PortWord.frame (frameWord_of_bytes w)

/-! The codes that decode, and the admitted words (rules R65, R66, R68). -/

theorem exists_decodeDigit_iff (c : BitVec 4) : (∃ d, decodeDigit c = some d) ↔ c.toNat ≤ 9 ∨ c.toNat = 15 := by
  rw [← Option.isSome_iff_exists]
  revert c
  decide

theorem exists_decodeColor_iff (c : BitVec 3) : (∃ k, decodeColor c = some k) ↔ c.toNat ≠ 0 := by
  rw [← Option.isSome_iff_exists]
  revert c
  decide

theorem selectOpcode_masked {o : Opcode} {p m : CommandWord}
    (h : { op := o, pattern := p, mask := m } ∈ commandRows)
    (w : CommandWord) : selectOpcode w = some o ↔ w &&& m = p := by
  rw [selectOpcode_eq_some_iff, ← selects_iff h w, CommandRow.selects, beq_iff_eq]

/-- Settles O45: a word that selects a row is admitted unless its row has a digit or colour code, which then has to be
one of those assigned. -/
theorem admittedWordsDecode : Obligations.AdmittedWordsDecode := by
  intro w
  have hfull (p : CommandWord) : w = p ↔ w &&& 0xFFFFFFFFFFFFFFFF = p := by rw [and_ones (by decide)]
  rw [hfull 0x0300000000000000, hfull 0x0400000000000000, hfull 0x0700000000000000,
    ← selectOpcode_masked (o := .setTube) (by decide) w, ← selectOpcode_masked (o := .setNumber) (by decide) w,
    ← selectOpcode_masked (o := .render) (by decide) w, ← selectOpcode_masked (o := .clear) (by decide) w,
    ← selectOpcode_masked (o := .setBrightness) (by decide) w,
    ← selectOpcode_masked (o := .shiftByte) (by decide) w, ← selectOpcode_masked (o := .latch) (by decide) w]
  simp only [decodeCommand_ok_iff]
  constructor
  · rintro ⟨i, h⟩
    cases h with
    | setTube hw hd hc =>
      exact .inl ⟨hw, (exists_decodeDigit_iff _).mp ⟨_, hd⟩, (exists_decodeColor_iff _).mp ⟨_, hc⟩⟩
    | setNumber hw hc => exact .inr (.inl ⟨hw, (exists_decodeColor_iff _).mp ⟨_, hc⟩⟩)
    | _ hw => simp [hw]
  · rintro (⟨hw, hdigit, hcolor⟩ | ⟨hw, hcolor⟩ | hw | hw | hw | hw | hw)
    · obtain ⟨d, hd⟩ := (exists_decodeDigit_iff _).mpr hdigit
      obtain ⟨c, hc⟩ := (exists_decodeColor_iff _).mpr hcolor
      exact ⟨_, .setTube hw hd hc⟩
    · obtain ⟨c, hc⟩ := (exists_decodeColor_iff _).mpr hcolor
      exact ⟨_, .setNumber hw hc⟩
    · exact ⟨_, .render hw⟩
    · exact ⟨_, .clear hw⟩
    · exact ⟨_, .setBrightness hw⟩
    · exact ⟨_, .shiftByte hw⟩
    · exact ⟨_, .latch hw⟩

/-- Settles O46: each word is evaluated by the decoder. -/
theorem sampleWordsDecode : Obligations.SampleWordsDecode := by
  unfold Obligations.SampleWordsDecode
  decide

end Sys2Proof
end

section
/-! PROOFS. What a list of events leaves in the registers, read off the levels it drives; the levels of the parts an
operation's events are made of; the state an accepted operation leaves (rules R16 to R22, R111, R114, R150). -/

namespace Sys2Proof.Machine

/-! A list of events, register by register. -/

/-- The duties commanded, in order. -/
def Trace.dutyLevels (es : List Event) : List Byte :=
  es.filterMap fun e => match e with
    | .duty level => some level
    | _ => none

section
variable (es : List Event) (s : State)

theorem emitAll_clk : (emitAll es s).clk = (Trace.clockLevels es).getLastD s.clk := by
  induction es generalizing s with
  | nil => rfl
  | cons e es ih =>
    rw [emitAll_cons, ih]
    cases e with
    | clk b => exact (List.getLastD_cons ..).symm
    | _ => rfl

theorem emitAll_dat : (emitAll es s).dat = (Trace.dataLevels es).getLastD s.dat := by
  induction es generalizing s with
  | nil => rfl
  | cons e es ih =>
    rw [emitAll_cons, ih]
    cases e with
    | data b => exact (List.getLastD_cons ..).symm
    | _ => rfl

theorem emitAll_lat : (emitAll es s).lat = (Trace.latchLevels es).getLastD s.lat := by
  induction es generalizing s with
  | nil => rfl
  | cons e es ih =>
    rw [emitAll_cons, ih]
    cases e with
    | lat b => exact (List.getLastD_cons ..).symm
    | _ => rfl

theorem emitAll_dutyLevel : (emitAll es s).dutyLevel = (Trace.dutyLevels es).getLastD s.dutyLevel := by
  induction es generalizing s with
  | nil => rfl
  | cons e es ih =>
    rw [emitAll_cons, ih]
    cases e with
    | duty b => exact (List.getLastD_cons ..).symm
    | _ => rfl

theorem emitAll_store_of_no_latch (h : Trace.latchLevels es = []) : (emitAll es s).store = s.store := by
  induction es generalizing s with
  | nil => rfl
  | cons e es ih =>
    cases e with
    | lat b => simp [Trace.latchLevels] at h
    | _ => exact ih _ h

end

/-! The levels of a list of events made of parts. -/

section
variable (es fs : List Event)

@[simp] theorem Trace.dataLevels_append : dataLevels (es ++ fs) = dataLevels es ++ dataLevels fs :=
  List.filterMap_append
@[simp] theorem Trace.clockLevels_append : clockLevels (es ++ fs) = clockLevels es ++ clockLevels fs :=
  List.filterMap_append
@[simp] theorem Trace.latchLevels_append : latchLevels (es ++ fs) = latchLevels es ++ latchLevels fs :=
  List.filterMap_append
@[simp] theorem Trace.dutyLevels_append : dutyLevels (es ++ fs) = dutyLevels es ++ dutyLevels fs :=
  List.filterMap_append
@[simp] theorem Trace.brightnessLevels_append :
    brightnessLevels (es ++ fs) = brightnessLevels es ++ brightnessLevels fs := List.filterMap_append
@[simp] theorem Trace.duration_append (c : Config) : duration c (es ++ fs) = duration c es + duration c fs := by
  simp [duration]

end

section
variable {α : Type} (g : α → List Event) (xs : List α)

theorem Trace.dataLevels_flatMap : dataLevels (xs.flatMap g) = xs.flatMap fun x => dataLevels (g x) :=
  List.filterMap_flatMap
theorem Trace.clockLevels_flatMap : clockLevels (xs.flatMap g) = xs.flatMap fun x => clockLevels (g x) :=
  List.filterMap_flatMap
theorem Trace.latchLevels_flatMap : latchLevels (xs.flatMap g) = xs.flatMap fun x => latchLevels (g x) :=
  List.filterMap_flatMap
theorem Trace.dutyLevels_flatMap : dutyLevels (xs.flatMap g) = xs.flatMap fun x => dutyLevels (g x) :=
  List.filterMap_flatMap
theorem Trace.brightnessLevels_flatMap :
    brightnessLevels (xs.flatMap g) = xs.flatMap fun x => brightnessLevels (g x) := List.filterMap_flatMap

/-- Parts of one duration `d` add up. -/
theorem Trace.duration_flatMap {c : Config} {d : Nat} (h : ∀ x, duration c (g x) = d) :
    duration c (xs.flatMap g) = xs.length * d := by
  induction xs with
  | nil => simp [duration]
  | cons x xs ih =>
    rw [List.flatMap_cons, duration_append, h, ih, List.length_cons]
    ring

end

/-- The clock levels of the bits `bits`: one pulse a bit. -/
def pulses (bits : List Bool) : List Bool := bits.flatMap fun _ => [true, false]

section
variable (bits : List Bool)

theorem dataLevels_bits : Trace.dataLevels (bits.flatMap bitEvents) = bits :=
  (Trace.dataLevels_flatMap ..).trans (List.flatMap_singleton' bits)

theorem clockLevels_bits : Trace.clockLevels (bits.flatMap bitEvents) = pulses bits := Trace.clockLevels_flatMap ..

theorem latchLevels_bits : Trace.latchLevels (bits.flatMap bitEvents) = [] :=
  (Trace.latchLevels_flatMap ..).trans (List.flatMap_eq_nil_iff.mpr fun _ _ => rfl)

theorem dutyLevels_bits : Trace.dutyLevels (bits.flatMap bitEvents) = [] :=
  (Trace.dutyLevels_flatMap ..).trans (List.flatMap_eq_nil_iff.mpr fun _ _ => rfl)

theorem brightnessLevels_bits : Trace.brightnessLevels (bits.flatMap bitEvents) = [] :=
  (Trace.brightnessLevels_flatMap ..).trans (List.flatMap_eq_nil_iff.mpr fun _ _ => rfl)

theorem duration_bits (c : Config) : Trace.duration c (bits.flatMap bitEvents) = bits.length * (3 * c.tBit) :=
  Trace.duration_flatMap _ _ fun b => by simp [Trace.duration, bitEvents, Event.hold]; omega

theorem length_bits : (bits.flatMap bitEvents).length = 6 * bits.length := by simp [bitEvents, Nat.mul_comm]

/-- The clock is low after the last pulse, and where there is none it stays low. -/
theorem getLastD_pulses : (pulses bits).getLastD false = false := by
  induction bits with
  | nil => rfl
  | cons b bits ih =>
    rw [pulses, List.flatMap_cons, ← pulses]
    simpa only [List.cons_append, List.nil_append, List.getLastD_cons] using ih

theorem rises_pulses : Trace.rises false (pulses bits) = bits.length := by
  induction bits with
  | nil => rfl
  | cons b bits ih =>
    rw [pulses, List.flatMap_cons, ← pulses]
    simp [Trace.rises, ih, Nat.add_comm]

theorem falls_pulses : Trace.falls false (pulses bits) = bits.length := by
  induction bits with
  | nil => rfl
  | cons b bits ih =>
    rw [pulses, List.flatMap_cons, ← pulses]
    simp [Trace.falls, ih, Nat.add_comm]

end

/-! The levels of a latch (rule R115). -/

theorem dataLevels_latch : Trace.dataLevels latchEvents = [] := rfl
theorem clockLevels_latch : Trace.clockLevels latchEvents = [] := rfl
theorem latchLevels_latch : Trace.latchLevels latchEvents = [false, true] := rfl
theorem dutyLevels_latch : Trace.dutyLevels latchEvents = [] := rfl
theorem brightnessLevels_latch : Trace.brightnessLevels latchEvents = [] := rfl
theorem duration_latch (c : Config) : Trace.duration c latchEvents = c.tLatch := by
  simp [Trace.duration, latchEvents, Event.hold]

/-! The bits of a byte, a frame and a render. -/

theorem length_byteBits (v : Byte) : (byteBits v).length = 8 := rfl

theorem length_frameBits (f : Frame) : (frameBits f).length = 16 := rfl

/-- The bits of a render in the order they are sent (rules R44 to R46). -/
def renderBits (l : CtlLayout) (buf : List TubeState) : List Bool :=
  buf.reverse.flatMap fun t => frameBits (encodeTube l t)

theorem length_renderBits (l : CtlLayout) (buf : List TubeState) : (renderBits l buf).length = 16 * buf.length := by
  simp [renderBits, length_frameBits, Nat.mul_comm]

section
variable (l : CtlLayout) (backend : Backend)

/-! The levels of one tube's events. -/

section
variable (t : TubeState)

theorem dataLevels_tube : Trace.dataLevels (tubeEvents l backend t) = frameBits (encodeTube l t) := by
  rw [tubeEvents, frameEvents_eq, Trace.dataLevels_append, dataLevels_bits]
  cases backend <;> rfl

theorem clockLevels_tube : Trace.clockLevels (tubeEvents l backend t) = pulses (frameBits (encodeTube l t)) := by
  rw [tubeEvents, frameEvents_eq, Trace.clockLevels_append, clockLevels_bits]
  cases backend <;> rfl

theorem latchLevels_tube : Trace.latchLevels (tubeEvents l backend t) = [] := by
  rw [tubeEvents, frameEvents_eq, Trace.latchLevels_append, latchLevels_bits]
  cases backend <;> rfl

theorem brightnessLevels_tube : Trace.brightnessLevels (tubeEvents l backend t) = [t.brightness] := by
  rw [tubeEvents, frameEvents_eq, Trace.brightnessLevels_append, brightnessLevels_bits]
  cases backend <;> rfl

theorem dutyLevels_tube :
    Trace.dutyLevels (tubeEvents l backend t) = if backend = .pwm then [t.brightness] else [] := by
  rw [tubeEvents, frameEvents_eq, Trace.dutyLevels_append, dutyLevels_bits]
  cases backend <;> rfl

theorem duration_tube (c : Config) : Trace.duration c (tubeEvents l backend t) = 48 * c.tBit := by
  rw [tubeEvents, frameEvents_eq, Trace.duration_append, duration_bits, length_frameBits]
  cases backend <;> simp [brightnessEvents, Trace.duration, Event.hold] <;> omega

theorem length_tube : (tubeEvents l backend t).length = 97 := by
  rw [tubeEvents, frameEvents_eq, List.length_append, length_bits, length_frameBits]
  cases backend <;> rfl

end

/-! The levels of a render's events. -/

section
variable (buf : List TubeState)

theorem dataLevels_render : Trace.dataLevels (renderEvents l backend buf) = renderBits l buf := by
  rw [renderEvents, Trace.dataLevels_append, Trace.dataLevels_flatMap]
  simp only [dataLevels_tube, dataLevels_latch, List.append_nil]
  rfl

theorem clockLevels_render : Trace.clockLevels (renderEvents l backend buf) = pulses (renderBits l buf) := by
  rw [renderEvents, Trace.clockLevels_append, Trace.clockLevels_flatMap]
  simp only [clockLevels_tube, clockLevels_latch, List.append_nil, pulses, renderBits, List.flatMap_assoc]

theorem latchLevels_render : Trace.latchLevels (renderEvents l backend buf) = [false, true] := by
  rw [renderEvents, Trace.latchLevels_append, Trace.latchLevels_flatMap]
  simp [latchLevels_tube, latchLevels_latch]

theorem brightnessLevels_render :
    Trace.brightnessLevels (renderEvents l backend buf) = (buf.map (·.brightness)).reverse := by
  rw [renderEvents, Trace.brightnessLevels_append, Trace.brightnessLevels_flatMap]
  simp [brightnessLevels_tube, ← List.map_eq_flatMap, brightnessLevels_latch]

theorem dutyLevels_render :
    Trace.dutyLevels (renderEvents l backend buf) =
      if backend = .pwm then (buf.map (·.brightness)).reverse else [] := by
  rw [renderEvents, Trace.dutyLevels_append, Trace.dutyLevels_flatMap]
  cases backend <;> simp [dutyLevels_tube, ← List.map_eq_flatMap, dutyLevels_latch]

theorem duration_render (c : Config) :
    Trace.duration c (renderEvents l backend buf) = buf.length * 48 * c.tBit + c.tLatch := by
  rw [renderEvents, Trace.duration_append, Trace.duration_flatMap _ _ fun t => duration_tube l backend t c,
    duration_latch, List.length_reverse, Nat.mul_assoc]

theorem length_render : (renderEvents l backend buf).length = 97 * buf.length + 3 := by
  simp [renderEvents, length_tube, latchEvents, Nat.mul_comm]

end

end

end Sys2Proof.Machine
end

section
/-! PROOFS. The state an accepted operation leaves, register by register, and the rules about the whole machine that
follow from what each operation's plan drives (rules R12, R16 to R23, R52, R129, R156). -/

namespace Sys2Proof.Machine

/-- The state an accepted operation leaves. -/
def completed (i : Instr) (s : State) : State :=
  endPlan (planOf i s) (emitAll (planOf i s).events (beginPlan (planOf i s) s))

theorem exec_ready (i : Instr) {s : State} (h : s.cmdReady = true) : exec i s = .next (completed i s) :=
  (exec_eq_runPlan i s).trans (runPlan_ready _ h)

theorem exec_notReady (i : Instr) {s : State} (h : s.cmdReady = false) : exec i s = .next s :=
  (exec_eq_runPlan i s).trans (runPlan_notReady _ h)

/-- Everything `exec` can answer. -/
theorem exec_next_cases {i : Instr} {s t : State} (h : exec i s = .next t) :
    (s.cmdReady = true ∧ t = completed i s) ∨ (s.cmdReady = false ∧ t = s) := by
  rw [exec_eq_runPlan] at h
  obtain ⟨hready, ht⟩ | ⟨hready, ht⟩ := runPlan_cases h
  · exact .inl ⟨hready, Host.Outcome.next.inj ht⟩
  · exact .inr ⟨hready, Host.Outcome.next.inj ht⟩

theorem eq_completed {i : Instr} {s t : State} (hready : s.cmdReady = true) (h : exec i s = .next t) :
    t = completed i s := Host.Outcome.next.inj (h.symm.trans (exec_ready i hready))

section
variable (i : Instr) (s : State)

@[simp] theorem completed_cfg : (completed i s).cfg = s.cfg := by simp [completed]
@[simp] theorem completed_buf : (completed i s).buf = (planOf i s).buf := by simp [completed]
@[simp] theorem completed_backend : (completed i s).backend = s.backend := by simp [completed]
@[simp] theorem completed_initStatus : (completed i s).initStatus = s.initStatus := by simp [completed]
@[simp] theorem completed_cmdInvalid : (completed i s).cmdInvalid = s.cmdInvalid := by simp [completed]
@[simp] theorem completed_input : (completed i s).input = s.input := by simp [completed]
@[simp] theorem completed_freeCtr : (completed i s).freeCtr = s.freeCtr := by simp [completed]
@[simp] theorem completed_busy : (completed i s).busy = false := by simp [completed]
@[simp] theorem completed_upc : (completed i s).upc = 0 := by simp [completed]
@[simp] theorem completed_trace : (completed i s).trace = s.trace ++ (planOf i s).events := by simp [completed]

@[simp] theorem completed_committed :
    (completed i s).committed = if (planOf i s).commits then some (planOf i s).buf else s.committed := by
  simp [completed]

@[simp] theorem completed_clk : (completed i s).clk = (Trace.clockLevels (planOf i s).events).getLastD s.clk :=
  emitAll_clk ..

@[simp] theorem completed_dat : (completed i s).dat = (Trace.dataLevels (planOf i s).events).getLastD s.dat :=
  emitAll_dat ..

@[simp] theorem completed_lat : (completed i s).lat = (Trace.latchLevels (planOf i s).events).getLastD s.lat :=
  emitAll_lat ..

@[simp] theorem completed_dutyLevel :
    (completed i s).dutyLevel = (Trace.dutyLevels (planOf i s).events).getLastD s.dutyLevel := emitAll_dutyLevel ..

@[simp] theorem completed_sr_length : (completed i s).sr.length = s.sr.length := by simp [completed]

theorem completed_store_length (h : s.store.length = s.sr.length) :
    (completed i s).store.length = s.sr.length := emitAll_store_length (planOf i s).events (beginPlan _ s) h

theorem completed_store_of_no_latch (h : Trace.latchLevels (planOf i s).events = []) :
    (completed i s).store = s.store := emitAll_store_of_no_latch _ _ h

/-- The state an accepted operation leaves, every field but the tubes written out. -/
theorem completed_eq :
    completed i s = { s with
      buf := (planOf i s).buf
      clk := (Trace.clockLevels (planOf i s).events).getLastD s.clk
      dat := (Trace.dataLevels (planOf i s).events).getLastD s.dat
      lat := (Trace.latchLevels (planOf i s).events).getLastD s.lat
      dutyLevel := (Trace.dutyLevels (planOf i s).events).getLastD s.dutyLevel
      committed := if (planOf i s).commits then some (planOf i s).buf else s.committed
      busy := false, upc := 0, sr := (completed i s).sr, store := (completed i s).store
      trace := s.trace ++ (planOf i s).events } := by
  have hfields (t : State) : t = ⟨t.cfg, t.buf, t.clk, t.dat, t.lat, t.backend, t.dutyLevel, t.committed, t.busy,
    t.upc, t.initStatus, t.cmdInvalid, t.sr, t.store, t.trace, t.input, t.freeCtr⟩ := rfl
  rw [hfields (completed i s)]
  simp

end

/-! What each operation's plan drives. -/

/-- The operations that end with a render's commit (rules R20, R156). -/
def renders : Instr → Bool
  | .render => true
  | .clear => true
  | _ => false

/-- The operations that latch (rule R52): `LATCH`, and the renders. -/
def latches : Instr → Bool
  | .latch => true
  | i => renders i

theorem shiftByte_plan (value : Byte) (s : State) :
    planOf (.shiftByte value) s = { buf := s.buf, events := (byteBits value).flatMap bitEvents, commits := false } :=
  rfl

theorem tubeFrame_plan (ctl dig : Byte) (s : State) :
    planOf (.tubeFrame ctl dig) s =
      { buf := s.buf, events := (byteBits ctl ++ byteBits dig).flatMap bitEvents, commits := false } := rfl

section
variable (i : Instr) (s : State)

theorem planOf_commits : (planOf i s).commits = renders i := by cases i <;> rfl

theorem planOf_buf (hset : ∀ index d c v m b, i ≠ .setTube index d c v m b)
    (hnumber : ∀ n c z b, i ≠ .setNumber n c z b) (hclear : i ≠ .clear) : (planOf i s).buf = s.buf := by
  cases i with
  | setTube => exact (hset _ _ _ _ _ _ rfl).elim
  | setNumber => exact (hnumber _ _ _ _ rfl).elim
  | clear => exact absurd rfl hclear
  | _ => rfl

theorem planOf_buf_wf (h : Memory.wf s.cfg.numTubes s.buf) : Memory.wf s.cfg.numTubes (planOf i s).buf := by
  cases i with
  | setTube index d c v m b =>
    simp only [planOf, planSetTube]
    split
    · exact Memory.wf_write h ..
    · exact h
  | setNumber => exact Memory.wf_fill ..
  | clear => exact Memory.wf_fill ..
  | _ => exact h

/-- Every data bit an operation drives is clocked by one pulse (rule R111). -/
theorem planOf_clockLevels :
    Trace.clockLevels (planOf i s).events = pulses (Trace.dataLevels (planOf i s).events) := by
  cases i with
  | shiftByte value => rw [shiftByte_plan, clockLevels_bits, dataLevels_bits]
  | tubeFrame ctl dig => rw [tubeFrame_plan, clockLevels_bits, dataLevels_bits]
  | render => exact (clockLevels_render ..).trans (congrArg _ (dataLevels_render ..).symm)
  | clear => exact (clockLevels_render ..).trans (congrArg _ (dataLevels_render ..).symm)
  | setBrightness level => simp only [planOf, planSetBrightness]; cases s.backend <;> rfl
  | _ => rfl

theorem planOf_latchLevels : Trace.latchLevels (planOf i s).events = if latches i then [false, true] else [] := by
  cases i with
  | shiftByte value => rw [shiftByte_plan, latchLevels_bits]; rfl
  | tubeFrame ctl dig => rw [tubeFrame_plan, latchLevels_bits]; rfl
  | render => exact latchLevels_render ..
  | clear => exact latchLevels_render ..
  | setBrightness level => simp only [planOf, planSetBrightness]; cases s.backend <;> rfl
  | _ => rfl

/-- On PWM every brightness event commands the duty, on DIGITAL none does (rules R126, R129). -/
theorem planOf_dutyLevels :
    Trace.dutyLevels (planOf i s).events =
      if s.backend = .pwm then Trace.brightnessLevels (planOf i s).events else [] := by
  cases i with
  | shiftByte value => rw [shiftByte_plan, dutyLevels_bits, brightnessLevels_bits, ite_self]
  | tubeFrame ctl dig => rw [tubeFrame_plan, dutyLevels_bits, brightnessLevels_bits, ite_self]
  | render => simp only [planOf, planRender, dutyLevels_render, brightnessLevels_render]
  | clear => simp only [planOf, planClear, dutyLevels_render, brightnessLevels_render]
  | setBrightness level => simp only [planOf, planSetBrightness]; cases s.backend <;> rfl
  | _ => exact (ite_self _).symm

/-- No plan has more events than a render of the same tubes (rule R22). -/
theorem planOf_length_le (hbuf : Memory.wf s.cfg.numTubes s.buf) (htubes : 1 ≤ s.cfg.numTubes) :
    (planOf i s).events.length ≤ 97 * s.cfg.numTubes + 3 := by
  cases i with
  | render => exact (length_render ..).trans_le (by rw [hbuf])
  | clear => exact (length_render ..).trans_le (by rw [Memory.wf_fill])
  | shiftByte value => rw [shiftByte_plan, length_bits, length_byteBits]; omega
  | tubeFrame ctl dig => rw [tubeFrame_plan, length_bits, List.length_append, length_byteBits, length_byteBits]; omega
  | setBrightness level =>
    have hone : (brightnessEvents s.backend level).length = 1 := by cases s.backend <;> rfl
    exact hone.trans_le (by omega)
  | latch => simp [planOf, planLatch, latchEvents]
  | _ => exact Nat.zero_le _

end

/-! The rules about the whole machine. -/

theorem clk_rests (i : Instr) {s : State} (h : s.clk = false) : (completed i s).clk = false := by
  rw [completed_clk, planOf_clockLevels, h, getLastD_pulses]

theorem lat_after_latch {i : Instr} (h : latches i = true) (s : State) : (completed i s).lat = true := by
  rw [completed_lat, planOf_latchLevels, if_pos h]
  rfl

theorem lat_unless_latch {i : Instr} (h : latches i = false) (s : State) : (completed i s).lat = s.lat := by
  simp [planOf_latchLevels, h]

theorem store_unless_latch {i : Instr} (h : latches i = false) (s : State) : (completed i s).store = s.store :=
  completed_store_of_no_latch i s (by simp [planOf_latchLevels, h])

theorem dutyLevel_of_digital (i : Instr) {s : State} (h : s.backend = .digital) :
    (completed i s).dutyLevel = s.dutyLevel := by
  simp [planOf_dutyLevels, h]

/-- Settles O35: an accepted operation leaves the buffer its plan stages, and only the setters stage another. -/
theorem onlySettersWriteTheBuffer : Obligations.OnlySettersWriteTheBuffer := by
  intro i s t h hset hnumber hclear
  obtain ⟨-, rfl⟩ | ⟨-, rfl⟩ := exec_next_cases h
  · rw [completed_buf, planOf_buf i s hset hnumber hclear]
  · rfl

theorem renders_iff (i : Instr) : renders i = true ↔ i = .render ∨ i = .clear := by cases i <;> simp [renders]

theorem latches_iff (i : Instr) : latches i = true ↔ i = .latch ∨ i = .render ∨ i = .clear := by
  cases i <;> simp [latches, renders]

/-- Settles O36: the committed copy is written exactly where the plan commits, and then it is the buffer staged. -/
theorem onlyRendersCommit : Obligations.OnlyRendersCommit := by
  intro i s t hready h
  rw [eq_completed hready h]
  constructor
  · intro hi
    simp [State.isCommitted, planOf_commits, (renders_iff i).mpr hi]
  · intro hrender hclear
    have hi : renders i = false := by simp [← Bool.not_eq_true, renders_iff, hrender, hclear]
    simp [planOf_commits, hi]

/-- Settles O37: the storage stages capture at a rising latch edge only, and no other operation drives that line. -/
theorem onlyLatchesChangeTheDisplay : Obligations.OnlyLatchesChangeTheDisplay := by
  intro i s t h hlatch hrender hclear
  have hi : latches i = false := by simp [← Bool.not_eq_true, latches_iff, hlatch, hrender, hclear]
  obtain ⟨-, rfl⟩ | ⟨-, rfl⟩ := exec_next_cases h
  · exact ⟨store_unless_latch hi s, lat_unless_latch hi s⟩
  · exact ⟨rfl, rfl⟩

/-- Settles O38: whole pulses leave a low clock low, and the last level of a latch is high. -/
theorem linesAtRestBetweenOperations : Obligations.LinesAtRestBetweenOperations := by
  intro i s t hready h
  rw [eq_completed hready h]
  exact ⟨clk_rests i, fun hi => lat_after_latch ((latches_iff i).mpr hi) s⟩

/-- Settles O40: events touch lines, duty and tubes only, and the end of an operation lowers `busy` and `upc`. -/
theorem operationsKeepTheConstruction : Obligations.OperationsKeepTheConstruction := by
  intro i s t hready h
  rw [eq_completed hready h]
  simp

/-! The enable line (rules R129, R172). -/

/-- The events that move the duty or drive the enable line. -/
def Event.dims : Event → Bool
  | .duty _ => true
  | .en _ => true
  | _ => false

theorem dims_of_bits (bits : List Bool) : ∀ e ∈ bits.flatMap bitEvents, e.dims = false := by
  intro e he
  obtain ⟨b, -, hb⟩ := List.mem_flatMap.mp he
  have hbit : ∀ b, ∀ e ∈ bitEvents b, e.dims = false := by decide
  exact hbit b e hb

theorem dims_of_latch : ∀ e ∈ latchEvents, e.dims = false := by decide

theorem dims_of_render (l : CtlLayout) (buf : List TubeState) :
    ∀ e ∈ renderEvents l .digital buf, e.dims = false := by
  intro e he
  obtain htube | hlatch := List.mem_append.mp he
  · obtain ⟨t, -, ht⟩ := List.mem_flatMap.mp htube
    obtain hbrightness | hframe := List.mem_append.mp ht
    · rw [List.mem_singleton.mp hbrightness]; rfl
    · exact dims_of_bits _ e (frameEvents_eq _ ▸ hframe)
  · exact dims_of_latch e hlatch

theorem dims_of_digital (i : Instr) {s : State} (h : s.backend = .digital) :
    ∀ e ∈ (planOf i s).events, e.dims = false := by
  cases i with
  | render => simpa [planOf, planRender, h] using dims_of_render s.cfg.layout s.buf
  | clear => simpa only [planOf, planClear, h] using dims_of_render s.cfg.layout _
  | shiftByte value => exact dims_of_bits (byteBits value)
  | tubeFrame ctl dig => exact dims_of_bits (byteBits ctl ++ byteBits dig)
  | setBrightness level => simp [planOf, planSetBrightness, h, brightnessEvents, Event.dims]
  | latch => exact dims_of_latch
  | _ => exact fun e he => absurd he List.not_mem_nil

/-- Settles O20: on DIGITAL the brightness event is the diagnostic, and no other event is about the duty or the enable
line. -/
theorem digitalBackendNeverDims : Obligations.DigitalBackendNeverDims := by
  intro i s t hdigital h
  obtain ⟨-, rfl⟩ | ⟨-, rfl⟩ := exec_next_cases h
  · refine ⟨dutyLevel_of_digital i hdigital, by simpa using hdigital, _, completed_trace i s, fun e he => ?_⟩
    have hdims := dims_of_digital i hdigital e he
    constructor
    · rintro level rfl
      cases hdims
    · rintro b rfl
      cases hdims
  · exact ⟨rfl, hdigital, [], by simp, by simp⟩

/-! An operation in progress (rule R22). -/

theorem midway_ready (i : Instr) (k : Nat) {s : State} (h : s.cmdReady = true) :
    midway i k s = emitAll ((planOf i s).events.take k) (beginPlan (planOf i s) s) := by
  simp only [midway, midPlan, if_pos h]

theorem emitAll_take_succ {es : List Event} {k : Nat} {e : Event} (h : es[k]? = some e) (s : State) :
    emitAll (es.take (k + 1)) s = emit e (emitAll (es.take k) s) := by
  rw [List.take_add_one, h, emitAll_append]
  rfl

/-- Settles O41: a run of events is split after its first `k`, and `upc` counts those emitted; completing it is what
`exec` does at once. -/
theorem operationIsItsEventsOneByOne : Obligations.OperationIsItsEventsOneByOne := by
  intro i s hready
  refine ⟨fun k hk => ?_, fun k e he => ?_, ?_, fun hs => ?_⟩
  · simp [midway_ready i k hready, hk]
  · rw [midway_ready i _ hready, midway_ready i k hready, emitAll_take_succ he]
  · refine ⟨_, exec_ready i hready, completed_upc i s, completed_busy i s, ?_⟩
    rw [midway_ready i _ hready, List.take_length, completed]
  · obtain ⟨-, hexists⟩ := (cmdReady_iff s).mp hready
    obtain ⟨htubes, -⟩ := hs.parameters
    exact planOf_length_le i s (hs.buffer hexists) htubes

end Sys2Proof.Machine
end

section
/-! PROOFS. The port (rules R60, R61, R68), construction and the constructions cut into an operation (rules R25, R125,
R171, R190, U7), and the invariant of the states between operations. -/

namespace Sys2Proof.Machine

/-! The port. -/

/-- The state once the host's input is taken from its list, which then is `rest`. -/
def fetched (rest : List HostInput) (s : State) : State := { s with input := rest, cmdInvalid := false }

section
variable {s : State} {rest : List HostInput}

theorem step_idle (h : s.input = .idle :: rest) : step s = .next (fetched rest s) := by
  simp only [step, fetch_cons h, fetched]

theorem step_present {w : PortWord} (h : s.input = .present w :: rest) : step s = present w (fetched rest s) := by
  simp only [step, fetch_cons h, fetched]

theorem step_construct {c : Config} (h : s.input = .construct c :: rest) :
    step s = reconstruct c (fetched rest s) := by simp only [step, fetch_cons h, fetched]

theorem step_cutShort {w : PortWord} {k : Nat} {c : Config} (h : s.input = .cutShort w k c :: rest) :
    step s = cutShort w k c (fetched rest s) := by simp only [step, fetch_cons h, fetched]

end

theorem present_ok {s : State} {w : PortWord} {i : Instr} (h : decode s.cfg.layout w = .ok i) :
    present w s = exec i s := by simp only [present, h]

theorem present_error {s : State} {w : PortWord} {e : DecodeError} (h : decode s.cfg.layout w = .error e) :
    present w s = rejectWord w s := by simp only [present, h]

theorem absorbInvalid_ready {s : State} (h : s.cmdReady = true) : absorbInvalid s = { s with cmdInvalid := true } := by
  simp only [absorbInvalid, if_pos h]

theorem absorbInvalid_notReady {s : State} (h : s.cmdReady = false) : absorbInvalid s = s := by
  simp [absorbInvalid, h]

/-- Settles O47: fetching takes the word from the list, and an admitted word is performed. -/
theorem stepPerformsThePresentedWord : Obligations.StepPerformsThePresentedWord := by
  intro s w rest i hinput hdecode
  exact (step_present hinput).trans (present_ok (s := fetched rest s) hdecode)

theorem present_invalid {s : State} {w : CommandWord} {e : DecodeError} (h : decodeCommand w = .error e) :
    present (.command w) s = .next (absorbInvalid s) := present_error (w := .command w) h

/-- Settles O48: the port is ready, so the word is absorbed. -/
theorem stepAbsorbsAnInvalidWord : Obligations.StepAbsorbsAnInvalidWord := by
  intro s w rest e hready hinput hdecode
  rw [step_present hinput, present_invalid hdecode, absorbInvalid_ready (s := fetched rest s) hready]
  rfl

theorem present_notReady {s : State} (h : s.cmdReady = false) (w : CommandWord) :
    present (.command w) s = .next s := by
  cases hdecode : decodeCommand w with
  | ok i => exact (present_ok (w := .command w) hdecode).trans (exec_notReady i h)
  | error e => rw [present_invalid hdecode, absorbInvalid_notReady h]

/-- Settles O49: a plan is not begun while the port is not ready, and an invalid word is not even absorbed. -/
theorem nothingAcceptedWhileNotReady : Obligations.NothingAcceptedWhileNotReady := by
  intro s hready
  exact ⟨fun i => exec_notReady i hready, fun w rest hinput =>
    (step_present hinput).trans (present_notReady (s := fetched rest s) hready w)⟩

/-- Settles O50: fetching nothing, or an idle entry, only lowers the strobe and takes the entry from the list. -/
theorem idleStepHoldsTheLines : Obligations.IdleStepHoldsTheLines := by
  intro s
  exact ⟨fun h => by simp only [step, fetch_nil h], fun rest h => step_idle h⟩

theorem decodeFrame_spare {l : CtlLayout} {w : FrameWord} (h : w.getLsbD (8 + l.pSpare) = true) :
    decode l (.frame w) = .error .spareBitSet := by simp only [decode, decodeFrame, if_pos h]

/-- Settles O54: construction checks its parameters first, and the decoder the spare bit of a frame word. -/
theorem stepRefusals : Obligations.StepRefusals := by
  constructor
  · intro s c rest hinput hc
    rw [step_construct hinput, reconstruct_invalid hc]
  · intro s w rest hinput hspare
    rw [step_present hinput, present_error (s := fetched rest s) (decodeFrame_spare hspare), rejectWord]

/-! Construction. -/

theorem length_freeBits (start n : Nat) : (Config.freeBits start n).length = n := by simp [Config.freeBits]

theorem fill_const (n : Nat) (t : TubeState) : Memory.fill n (fun _ => t) = List.replicate n t := by
  simp [Memory.fill, List.map_const']

theorem step_construct_valid {s : State} {c : Config} {rest : List HostInput} (h : s.input = .construct c :: rest)
    (hc : c.Valid) : step s = .next (construct c (fetched rest s)) :=
  (step_construct h).trans (reconstruct_valid hc _)

theorem construct_fatal {c : Config} (h : c.linesAvailable = false) (s : State) :
    construct c s = raiseInitFatal (freeTubes { s with cfg := c }) := by simp [construct, h]

/-- A construction that succeeds keeps the trace and the host's list, and the count of free bits goes on. -/
theorem construct_lines {c : Config} (h : c.linesAvailable = true) (s : State) :
    construct c s =
      { cfg := c
        buf := List.replicate c.numTubes TubeState.dflt
        clk := false, dat := false, lat := c.latchResetLevel
        backend := if c.pwmAvailable then .pwm else .digital
        dutyLevel := 255, committed := none, busy := false, upc := 0
        initStatus := if c.pwmAvailable then .ready else .degraded
        cmdInvalid := false
        sr := Config.freeBits s.freeCtr (16 * c.numTubes)
        store := Config.freeBits (s.freeCtr + 16 * c.numTubes) (16 * c.numTubes)
        trace := s.trace ++ [if c.pwmAvailable then .duty 255 else .en true]
        input := s.input, freeCtr := s.freeCtr + 32 * c.numTubes } := by
  simp only [construct, h, if_true]
  cases hpwm : c.pwmAvailable
  · rw [constructBlock_digital _ hpwm, fill_const]
    rfl
  · rw [constructBlock_pwm _ hpwm, fill_const]
    rfl

/-- Settles O51: `rst` with valid parameters is a construction, and the tubes' free bits are as many as the chain has
stages. -/
theorem constructionResult : Obligations.ConstructionResult := by
  intro s c rest hinput hc hlines
  refine ⟨_, step_construct_valid hinput hc, ?_⟩
  rw [construct_lines hlines]
  exact ⟨length_freeBits .., length_freeBits .., rfl⟩

theorem raiseInitFatal_notReady (s : State) : (raiseInitFatal s).cmdReady = false := by simp [State.cmdReady]

/-- Settles O52: an aborted construction emits nothing, and `init_status` 2 keeps the port from being ready. -/
theorem initFatalAcceptsNothing : Obligations.InitFatalAcceptsNothing := by
  intro s c rest hinput hc hlines
  refine ⟨_, step_construct_valid hinput hc, ?_⟩
  rw [construct_fatal hlines]
  have hready := raiseInitFatal_notReady (freeTubes { fetched rest s with cfg := c })
  exact ⟨rfl, hready, rfl, rfl, rfl, rfl, fun i => exec_notReady i hready⟩

theorem midway_trace (i : Instr) (k : Nat) {s : State} (h : s.cmdReady = true) :
    (midway i k s).trace = s.trace ++ (planOf i s).events.take k := by simp [midway_ready i k h]

theorem midway_input (i : Instr) (k : Nat) (s : State) : (midway i k s).input = s.input := by
  simp only [midway, midPlan]
  split <;> simp

/-- Taking the host's input changes no plan. -/
theorem planOf_fetched (i : Instr) (s : State) (rest : List HostInput) : planOf i (fetched rest s) = planOf i s := by
  cases i <;> rfl

/-- Settles O53: the operation is left after its first `k` events, and the construction that follows keeps only their
trace. -/
theorem resetCutsAnOperationShort : Obligations.ResetCutsAnOperationShort := by
  intro s w k c rest i hinput hready hdecode hc hlines
  have hdecode' : decode (fetched rest s).cfg.layout w = .ok i := hdecode
  have hcut : step s = .next (construct c (midway i k (fetched rest s))) := by
    rw [step_cutShort hinput]
    simp only [cutShort, hdecode', reconstruct_valid hc]
  refine ⟨_, hcut, ?_⟩
  rw [construct_lines hlines, midway_trace i k (s := fetched rest s) hready, midway_input, planOf_fetched]
  exact ⟨rfl, rfl, rfl, rfl, rfl, rfl, rfl, rfl, rfl, rfl, rfl⟩

/-- Settles O55: the record of the reset state is the record a construction with `Config.launch` leaves. -/
theorem resetIsAConstruction : Obligations.ResetIsAConstruction := by
  refine ⟨?_, fun t ht => List.eq_of_mem_replicate ht, rfl, rfl, rfl, rfl, rfl, rfl, rfl⟩
  rw [construct_lines rfl]
  simp [State.reset, Config.launch]

/-! The invariant. -/

theorem construct_consistent {c : Config} (hc : c.Valid) (s : State) : (construct c s).Consistent := by
  cases hlines : c.linesAvailable with
  | false =>
    rw [construct_fatal hlines]
    constructor
    case parameters => exact hc
    all_goals simp [hlines, length_freeBits]
  | true =>
    rw [construct_lines hlines]
    constructor
    case parameters => exact hc
    case buffer => exact fun _ => List.length_replicate
    all_goals cases c.pwmAvailable <;> simp [hlines, length_freeBits]

/-- Settles O56: the reset state is a construction. -/
theorem resetIsConsistent : Obligations.ResetIsConsistent := by
  obtain ⟨hconstruct, -⟩ := resetIsAConstruction
  unfold Obligations.ResetIsConsistent
  rw [← hconstruct]
  exact construct_consistent (by decide) _

/-- The invariant does not speak of the host's list or the strobe. -/
theorem State.Consistent.withPort {s : State} (h : s.Consistent) (input : List HostInput) (strobe : Bool) :
    State.Consistent { s with input := input, cmdInvalid := strobe } :=
  ⟨h.parameters, h.idle, h.stages, h.lines, h.buffer, h.clock, h.strap, h.pinned, h.committed, h.aborted⟩

theorem latches_of_renders {i : Instr} (h : renders i = true) : latches i = true :=
  (latches_iff i).mpr (.inr ((renders_iff i).mp h))

/-- An accepted operation keeps the invariant: it stages a whole buffer, rests the clock, and latches where it
commits. -/
theorem completed_consistent (i : Instr) {s : State} (hs : s.Consistent) (hready : s.cmdReady = true) :
    (completed i s).Consistent := by
  obtain ⟨-, hexists⟩ := (cmdReady_iff s).mp hready
  obtain ⟨hsr, hstore⟩ := hs.stages
  have hbuf : Memory.wf s.cfg.numTubes (planOf i s).buf := planOf_buf_wf i s (hs.buffer hexists)
  constructor
  case parameters => simpa using hs.parameters
  case idle => simp
  case stages => simp [hsr, completed_store_length i s (hstore.trans hsr.symm)]
  case lines => simpa using hs.lines
  case buffer => simpa using fun _ => hbuf
  case clock => exact fun _ => clk_rests i (hs.clock hexists)
  case strap => simpa using hs.strap
  case pinned =>
    intro _ hdigital
    rw [completed_backend] at hdigital
    rw [dutyLevel_of_digital i hdigital, hs.pinned hexists hdigital]
  case aborted => simp [hexists]
  case committed =>
    intro b hb
    rw [completed_committed, planOf_commits] at hb
    rw [completed_cfg]
    cases hrenders : renders i with
    | true =>
      obtain rfl : (planOf i s).buf = b := by simpa [hrenders] using hb
      exact ⟨hbuf, lat_after_latch (latches_of_renders hrenders) s⟩
    | false =>
      obtain ⟨hwf, hlat⟩ := hs.committed b (by simpa [hrenders] using hb)
      cases hlatches : latches i with
      | true => exact ⟨hwf, lat_after_latch hlatches s⟩
      | false => exact ⟨hwf, (lat_unless_latch hlatches s).trans hlat⟩

theorem exec_keeps_consistent {i : Instr} {s t : State} (hs : s.Consistent) (h : exec i s = .next t) :
    t.Consistent := by
  obtain ⟨hready, rfl⟩ | ⟨-, rfl⟩ := exec_next_cases h
  · exact completed_consistent i hs hready
  · exact hs

theorem present_keeps_consistent {w : PortWord} {s t : State} (hs : s.Consistent) (h : present w s = .next t) :
    t.Consistent := by
  cases hdecode : decode s.cfg.layout w with
  | ok i => exact exec_keeps_consistent hs ((present_ok hdecode).symm.trans h)
  | error e =>
    rw [present_error hdecode] at h
    cases w with
    | frame w => cases h
    | command w =>
      cases h
      unfold absorbInvalid
      split
      · exact hs.withPort s.input true
      · exact hs

theorem reconstruct_consistent {c : Config} {s t : State} (h : reconstruct c s = .next t) : t.Consistent := by
  by_cases hc : c.Valid
  · rw [reconstruct_valid hc] at h
    cases h
    exact construct_consistent hc s
  · rw [reconstruct_invalid hc] at h
    cases h

theorem cutShort_consistent {w : PortWord} {k : Nat} {c : Config} {s t : State} (h : cutShort w k c s = .next t) :
    t.Consistent := by
  unfold cutShort at h
  split at h <;> exact reconstruct_consistent h

/-- Settles O57: an operation keeps the invariant, and every construction makes it anew. -/
theorem stepKeepsConsistent : Obligations.StepKeepsConsistent := by
  intro s t hs h
  obtain ⟨-, hstep⟩ | ⟨x, rest, -, ⟨-, hstep⟩ | ⟨w, -, hstep⟩ | ⟨c, -, hstep⟩ | ⟨w, k, c, -, hstep⟩⟩ :=
    step_cases s
  all_goals rw [hstep] at h
  · cases h
    exact hs.withPort s.input false
  · cases h
    exact hs.withPort rest false
  · exact present_keeps_consistent (hs.withPort rest false) h
  · exact reconstruct_consistent h
  · exact cutShort_consistent h

end Sys2Proof.Machine
end

section
/-! PROOFS. The frame of a tube state: its comma, spare and colour bits, what it determines, and the closed form at the
default layout (rules R73 to R75, R95 to R105). -/

namespace Sys2Proof

theorem CtlLayout.Valid.spare_ne {l : CtlLayout} (h : l.Valid) :
    l.pD8 ≠ l.pSpare ∧ l.pD9 ≠ l.pSpare ∧ l.pHV ≠ l.pSpare ∧ l.pComma ≠ l.pSpare := by
  simp only [CtlLayout.Valid, CtlLayout.positions, List.nodup_cons, List.mem_cons, not_or] at h
  tauto

theorem CtlLayout.Valid.colours_ne {l : CtlLayout} (h : l.Valid) :
    l.pR ≠ l.pG ∧ l.pR ≠ l.pB ∧ l.pG ≠ l.pB := by
  simp only [CtlLayout.Valid, CtlLayout.positions, List.nodup_cons, List.mem_cons, not_or] at h
  tauto

/-! The colours that select each line (rule R73, decision D2). -/

def redColors : List Color := [.red, .white, .redBlue, .redGreen]
def greenColors : List Color := [.green, .white, .redGreen, .blueGreen]
def blueColors : List Color := [.blue, .white, .redBlue, .blueGreen]

/-- The colour by the lines it selects; no colour selects none of them. -/
def colorOfLines : (red green blue : Bool) → Color
  | true, false, false => .red
  | false, true, false => .green
  | false, false, true => .blue
  | true, true, false => .redGreen
  | true, false, true => .redBlue
  | false, true, true => .blueGreen
  | _, _, _ => .white

theorem colorOfLines_eq (c : Color) :
    colorOfLines (decide (c ∈ redColors)) (decide (c ∈ greenColors)) (decide (c ∈ blueColors)) = c := by
  cases c <;> rfl

/-- The lines a colour selects tell it from every other one. -/
theorem color_eq_of_lines {c d : Color} (hr : c ∈ redColors ↔ d ∈ redColors)
    (hg : c ∈ greenColors ↔ d ∈ greenColors) (hb : c ∈ blueColors ↔ d ∈ blueColors) : c = d := by
  rw [← colorOfLines_eq c, ← colorOfLines_eq d]
  simp only [hr, hg, hb]

/-- Every colour selects a line. -/
theorem color_selects (c : Color) : c ∈ redColors ∨ c ∈ greenColors ∨ c ∈ blueColors := by cases c <;> decide

end Sys2Proof

namespace Sys2Proof.Machine

theorem colorMask_bit (l : CtlLayout) (q : Fin 8) :
    (colorMask l).getLsbD q.val = (decide (l.pR = q) || decide (l.pG = q) || decide (l.pB = q)) := by
  simp only [colorMask, BitVec.getLsbD_or, bitMask_bit]

section
variable {l : CtlLayout} (t : TubeState) (h : l.Valid)
include h

theorem controlByte_pComma : (controlByte l t).getLsbD l.pComma = t.comma := by
  obtain ⟨⟨-, -, h8⟩, ⟨-, h9⟩, hHV⟩ := h.flags_ne
  rw [controlByte_bit_of_flag t h (by simp [CtlLayout.flagPositions])]
  simp [h8, h9, hHV]

theorem controlByte_pSpare : (controlByte l t).getLsbD l.pSpare = false := by
  obtain ⟨h8, h9, hHV, hComma⟩ := h.spare_ne
  rw [controlByte_bit_of_flag t h (by simp [CtlLayout.flagPositions])]
  simp [h8, h9, hHV, hComma]

/-- The base pattern sets a colour line, and only the colour can clear it. -/
theorem controlByte_bit_of_color {q : Fin 8} (hq : (colorMask l).getLsbD q.val = true) :
    (controlByte l t).getLsbD q.val = !(clearMask l t.color).getLsbD q.val := by
  rw [colorMask_bit] at hq
  obtain ⟨hHR, hHG, hHB⟩ := h.colour_ne_flag (q := l.pHV) (by simp [CtlLayout.flagPositions])
  obtain ⟨hCR, hCG, hCB⟩ := h.colour_ne_flag (q := l.pComma) (by simp [CtlLayout.flagPositions])
  have hHV : l.pHV ≠ q := by rintro rfl; simp_all
  have hComma : l.pComma ≠ q := by rintro rfl; simp_all
  rw [controlByte_bit, hq]
  simp [hHV, hComma]

theorem controlByte_pR : (controlByte l t).getLsbD l.pR = decide (t.color ∉ redColors) := by
  obtain ⟨hRG, hRB, -⟩ := h.colours_ne
  rw [controlByte_bit_of_color t h (by simp [colorMask_bit]), clearMask_bit]
  simp [hRG.symm, hRB.symm, redColors]

theorem controlByte_pG : (controlByte l t).getLsbD l.pG = decide (t.color ∉ greenColors) := by
  obtain ⟨hRG, -, hGB⟩ := h.colours_ne
  rw [controlByte_bit_of_color t h (by simp [colorMask_bit]), clearMask_bit]
  simp [hRG, hGB.symm, greenColors]

theorem controlByte_pB : (controlByte l t).getLsbD l.pB = decide (t.color ∉ blueColors) := by
  obtain ⟨-, hRB, hGB⟩ := h.colours_ne
  rw [controlByte_bit_of_color t h (by simp [colorMask_bit]), clearMask_bit]
  simp [hRB, hGB, blueColors]

/-- The colour bits are the base pattern with the colour's own lines cleared. -/
theorem controlByte_colorMask : controlByte l t &&& colorMask l = basePattern l &&& ~~~ clearMask l t.color := by
  apply BitVec.eq_of_getLsbD_eq
  intro i hi
  rw [basePattern, BitVec.getLsbD_and, BitVec.getLsbD_and, BitVec.getLsbD_not]
  cases hq : (colorMask l).getLsbD i with
  | false => simp
  | true =>
    rw [controlByte_bit_of_color t h (q := ⟨i, hi⟩) hq]
    simp [hi]

end

/-! The digit. -/

theorem digit_cases (d : Digit) :
    (∃ e : Fin 10, e.val ≤ 7 ∧ d = .figure e) ∨ d = .figure 8 ∨ d = .figure 9 ∨ d = .blank := by
  cases d with
  | blank => simp
  | figure e => revert e; decide

/-- A set bit of the digit byte is the digit. -/
theorem digit_of_digitByte_bit {d : Digit} {k : Nat} (h : (digitByte d).getLsbD k = true) :
    ∃ e : Fin 10, e.val = k ∧ d = .figure e := by
  obtain ⟨e, he, rfl⟩ | rfl | rfl | rfl := digit_cases d
  · rw [digitByte_bit_of_le he] at h
    exact ⟨e, (of_decide_eq_true h).symm, rfl⟩
  all_goals simp [digitByte] at h

theorem digitByte_ne_zero {e : Fin 10} (he : e.val ≤ 7) : digitByte (.figure e) ≠ 0 := by
  intro h
  have hbit := digitByte_bit_of_le he e.val
  simp [h] at hbit

theorem digitByte_eq_zero_iff (d : Digit) : digitByte d = 0 ↔ d = .figure 8 ∨ d = .figure 9 ∨ d = .blank := by
  constructor
  · intro h
    obtain ⟨e, he, rfl⟩ | hd := digit_cases d
    · exact absurd h (digitByte_ne_zero he)
    · exact hd
  · rintro (rfl | rfl | rfl) <;> rfl

/-- The digit byte and the two flags determine the digit. -/
theorem digit_eq_of_selects {d e : Digit} (hbyte : digitByte d = digitByte e) (h8 : d = .figure 8 ↔ e = .figure 8)
    (h9 : d = .figure 9 ↔ e = .figure 9) : d = e := by
  obtain ⟨a, ha, rfl⟩ | hd := digit_cases d
  · have hbit : (digitByte e).getLsbD a.val = true := by rw [← hbyte, digitByte_bit_of_le ha]; simp
    obtain ⟨b, hb, rfl⟩ := digit_of_digitByte_bit hbit
    rw [Fin.eq_of_val_eq hb]
  · have he := (digitByte_eq_zero_iff e).mp (hbyte ▸ (digitByte_eq_zero_iff d).mpr hd)
    grind

/-! The statements about every layout. -/

/-- Settles O2: the base pattern sets the three colour lines and the colour clears its own. -/
theorem controlByteColourBits : Obligations.ControlByteColourBits := fun _ t h =>
  ⟨controlByte_pR t h, controlByte_pG t h, controlByte_pB t h, controlByte_colorMask t h⟩

/-- Settles O4: only the comma sets its bit, nothing sets the spare one, and the encoder reads no brightness. -/
theorem commaBitSpareBitAndBrightness : Obligations.CommaBitSpareBitAndBrightness := fun _ t _ h =>
  ⟨controlByte_pComma t h, rfl, controlByte_pSpare t h⟩

/-- Settles O5: a flag is its own digit, whose byte is 0, and a bit of the byte is the digit itself. -/
theorem digitSelectExclusive : Obligations.DigitSelectExclusive := by
  intro l t h
  simp only [encodeTube, controlByte_pD8 t h, controlByte_pD9 t h, decide_eq_true_eq, decide_eq_false_iff_not,
    digitByte_eq_zero_iff]
  refine ⟨?_, id, id, ?_, ?_, ?_⟩
  · rintro ⟨h8, h9⟩
    cases h8.symm.trans h9
  · rintro (h8 | h9)
    · exact .inl h8
    · exact .inr (.inl h9)
  · intro j k hj hk
    obtain ⟨d, rfl, hd⟩ := digit_of_digitByte_bit hj
    obtain ⟨e, rfl, he⟩ := digit_of_digitByte_bit hk
    cases hd.symm.trans he
    rfl
  · constructor
    · rintro ⟨h8, h9, hzero⟩
      tauto
    · intro hblank
      simp [hblank]

/-- A control byte determines the colour: it selects the same lines. -/
theorem color_eq_of_controlByte {l : CtlLayout} {t u : TubeState} (h : l.Valid)
    (heq : controlByte l t = controlByte l u) : t.color = u.color := by
  have hr := controlByte_pR t h
  have hg := controlByte_pG t h
  have hb := controlByte_pB t h
  rw [heq, controlByte_pR u h, decide_eq_decide, not_iff_not] at hr
  rw [heq, controlByte_pG u h, decide_eq_decide, not_iff_not] at hg
  rw [heq, controlByte_pB u h, decide_eq_decide, not_iff_not] at hb
  exact color_eq_of_lines hr.symm hg.symm hb.symm

/-- Settles O6: two control bytes that agree select the same lines, and those tell the colours apart. -/
theorem coloursGiveDistinctControlBytes : Obligations.ColoursGiveDistinctControlBytes :=
  fun _ t c d h hne heq =>
    hne (color_eq_of_controlByte (t := { t with color := c }) (u := { t with color := d }) h heq)

/-- Settles O7: each named bit has a formula in its own field alone. -/
theorem frameFieldsIndependent : Obligations.FrameFieldsIndependent := by
  intro l t u h
  simp only [encodeTube, controlByte_pHV _ h, controlByte_pComma _ h, controlByte_colorMask _ h, controlByte_pD8 _ h,
    controlByte_pD9 _ h]
  refine ⟨id, id, fun hcolor => ?_, fun hdigit => ?_⟩
  · rw [hcolor]
  · simp only [hdigit, and_self]

theorem frameWord_inj {f g : Frame} (h : f.word = g.word) : f.ctl = g.ctl ∧ f.dig = g.dig :=
  ⟨by rw [← frameWord_ctl, h, frameWord_ctl], by rw [← frameWord_dig, h, frameWord_dig]⟩

theorem encodeTube_congr (l : CtlLayout) {t u : TubeState} (hdigit : t.digit = u.digit) (hcolor : t.color = u.color)
    (hvoltage : t.voltageEnabled = u.voltageEnabled) (hcomma : t.comma = u.comma) :
    encodeTube l t = encodeTube l u := by
  simp only [encodeTube, controlByte, hdigit, hcolor, hvoltage, hcomma]

/-- Settles O8: each field is read back from its own bits, and the brightness is not encoded. -/
theorem frameDeterminesVisibleFields : Obligations.FrameDeterminesVisibleFields := by
  intro l t u h
  constructor
  · intro heq
    obtain ⟨hctl, hdig⟩ := frameWord_inj heq
    simp only [encodeTube] at hctl hdig
    have h8 := controlByte_pD8 t h
    have h9 := controlByte_pD9 t h
    have hvoltage := controlByte_pHV t h
    have hcomma := controlByte_pComma t h
    rw [hctl, controlByte_pD8 u h, decide_eq_decide] at h8
    rw [hctl, controlByte_pD9 u h, decide_eq_decide] at h9
    rw [hctl, controlByte_pHV u h] at hvoltage
    rw [hctl, controlByte_pComma u h] at hcomma
    exact ⟨digit_eq_of_selects hdig h8.symm h9.symm, color_eq_of_controlByte h hctl, hvoltage.symm, hcomma.symm⟩
  · rintro ⟨hdigit, hcolor, hvoltage, hcomma⟩
    rw [encodeTube_congr l hdigit hcolor hvoltage hcomma]

/-- Settles O10: the digit selects exclude each other, every colour clears a line, and the spare bit is never set. -/
theorem frameShapesNeverProduced : Obligations.FrameShapesNeverProduced := by
  rintro l t f h rfl
  obtain ⟨hflags, -, -, hzero, hunique, -⟩ := digitSelectExclusive l t h
  refine ⟨hflags, ?_, controlByte_pSpare t h, ?_, fun ⟨hne, hflag⟩ => hne (hzero hflag)⟩
  · rintro ⟨hr, hg, hb⟩
    simp only [encodeTube, controlByte_pR t h, controlByte_pG t h, controlByte_pB t h, decide_eq_true_eq] at hr hg hb
    obtain hred | hgreen | hblue := color_selects t.color
    · exact hr hred
    · exact hg hgreen
    · exact hb hblue
  · rintro ⟨j, k, hne, hj, hk⟩
    exact hne (hunique j k hj hk)

/-! The default layout (decision D1). -/

/-- At the default layout no two steps of the encoder write the same bit, so each contributes its own mask. -/
theorem controlByte_steps_standard (c : Color) :
    ∀ d8 d9 v m : Bool,
      setWhen m (bitMask 6) (setWhen v (bitMask 5) (clearColor .standard c
        (setWhen d9 (bitMask 1) (setWhen d8 (bitMask 0) (basePattern .standard))))) =
      (if d8 then 0x01#8 else 0) ||| (if d9 then 0x02#8 else 0) |||
        (basePattern .standard &&& ~~~ clearMask .standard c) |||
        (if v then 0x20#8 else 0) ||| (if m then 0x40#8 else 0) := by
  cases c <;> decide

theorem controlByte_standard (t : TubeState) :
    controlByte .standard t =
      (if t.digit = .figure 8 then 0x01#8 else 0) ||| (if t.digit = .figure 9 then 0x02#8 else 0) |||
      (basePattern .standard &&& ~~~ clearMask .standard t.color) |||
      (if t.voltageEnabled then 0x20#8 else 0) ||| (if t.comma then 0x40#8 else 0) :=
  (controlByte_steps_standard t.color (t.digit == .figure 8) (t.digit == .figure 9) t.voltageEnabled t.comma).trans
    (by simp only [beq_iff_eq])

/-- Settles O9: the colour's share of the closed form is the base pattern without the lines it selects. -/
theorem encodeClosedFormAtDefaultLayout : Obligations.EncodeClosedFormAtDefaultLayout := by
  refine ⟨fun t => ⟨?_, ?_⟩, by decide, by decide⟩
  · rw [encodeTube, controlByte_standard]
    cases t.color <;> rfl
  · rw [encodeTube]
    cases t.digit <;> rfl

/-! The frame path (rules R70, R74). -/

theorem decode_encodeTube {l : CtlLayout} (h : l.Valid) (t : TubeState) :
    decode l (.frame (encodeTube l t).word) = .ok (.tubeFrame (encodeTube l t).ctl (encodeTube l t).dig) := by
  have hspare : (encodeTube l t).ctl.getLsbD l.pSpare = false := controlByte_pSpare t h
  simp only [decode, decodeFrame_word, hspare, Bool.false_eq_true, if_false]

/-- Settles O58: the spare bit of an encoded tube is 0, so its frame is admitted, and it is sent byte by byte. -/
theorem everyTubeFrameRuns : Obligations.EveryTubeFrameRuns := by
  intro s x rest hl hinput
  have hdecode := decode_encodeTube hl x
  refine ⟨hdecode, ?_⟩
  rw [step_present hinput, present_ok (s := fetched rest s) hdecode]
  obtain ⟨t, ht⟩ := operationsNeverRaise
    (.tubeFrame (encodeTube s.cfg.layout x).ctl (encodeTube s.cfg.layout x).dig) (fetched rest s)
  refine ⟨t, ht, fun hready => ?_⟩
  rw [eq_completed (s := fetched rest s) hready ht, completed_trace, List.append_assoc]
  rfl

end Sys2Proof.Machine
end

section
/-! PROOFS. The serial driver and the brightness gate: what one operation drives, emits and leaves (rules R30, R44, R111
to R116, R128, R129). -/

namespace Sys2Proof.Machine

/-! `SHIFT_BYTE` and a frame word. -/

/-- Every clock pulse ends low, and a byte has at least one. -/
theorem completed_shiftByte (value : Byte) (s : State) :
    completed (.shiftByte value) s = { s with
      dat := value.getLsbD 0, clk := false, sr := (completed (.shiftByte value) s).sr
      trace := s.trace ++ byteEvents value, upc := 0, busy := false } := by
  conv_lhs => rw [completed_eq, store_unless_latch rfl, shiftByte_plan, dataLevels_bits, clockLevels_bits,
    latchLevels_bits, dutyLevels_bits]
  rfl

theorem completed_tubeFrame (ctl dig : Byte) (s : State) :
    completed (.tubeFrame ctl dig) s = { s with
      dat := dig.getLsbD 0, clk := false, sr := (completed (.tubeFrame ctl dig) s).sr
      trace := s.trace ++ byteEvents ctl ++ byteEvents dig, upc := 0, busy := false } := by
  conv_lhs => rw [completed_eq, store_unless_latch rfl, tubeFrame_plan, dataLevels_bits, clockLevels_bits,
    latchLevels_bits, dutyLevels_bits]
  rw [List.append_assoc]
  rfl

/-- Settles O11: the plan's events are the eight bits, most significant first, and they drive no other line. -/
theorem shiftByteCompletes : Obligations.ShiftByteCompletes := fun value s h =>
  ⟨_, exec_ready _ h, completed_shiftByte value s⟩

/-- From a low clock each bit of the byte is shifted in. -/
theorem completed_shiftByte_sr (value : Byte) {s : State} (h : s.clk = false) :
    (completed (.shiftByte value) s).sr = shiftAll (byteBits value) s.sr := by
  rw [completed, shiftByte_plan, emitAll_bits _ (by exact h)]
  rfl

/-- Settles O12: one pulse a bit, and a bit shifted in moves all others one stage on. -/
theorem shiftByteFeedsTheChain : Obligations.ShiftByteFeedsTheChain := by
  intro value s hready hclk
  refine ⟨_, _, exec_ready _ hready, completed_trace .., ?_, store_unless_latch rfl s, clk_rests _ hclk, ?_, ?_⟩
  · rw [completed_shiftByte_sr value hclk, shiftAll_eq]
    rfl
  · rw [hclk, shiftByte_plan, clockLevels_bits, rises_pulses, length_byteBits]
  · rw [hclk, shiftByte_plan, clockLevels_bits, falls_pulses, length_byteBits]

theorem length_pulses (bits : List Bool) : (pulses bits).length = 2 * bits.length := by
  simp [pulses, Nat.mul_comm]

/-- A bit has three holds. -/
theorem count_hold_bits (bits : List Bool) : (bits.flatMap bitEvents).count (.wait .tBit) = 3 * bits.length := by
  have hbit : ∀ b, (bitEvents b).count (.wait .tBit) = 3 := by decide
  induction bits with
  | nil => rfl
  | cons b bits ih => rw [List.flatMap_cons, List.count_append, hbit, ih, List.length_cons]; omega

/-- Settles O13: eight bits of six events each, sixteen in a frame. -/
theorem shiftByteEmitsFortyEightEvents : Obligations.ShiftByteEmitsFortyEightEvents := by
  intro value dig s hready
  refine ⟨_, _, _, _, exec_ready _ hready, completed_trace .., ?_, ?_, ?_, ?_, exec_ready _ hready,
    completed_trace .., ?_⟩
  · rw [shiftByte_plan, length_bits, length_byteBits]
  · rw [shiftByte_plan, count_hold_bits, length_byteBits]
  · rw [shiftByte_plan, dataLevels_bits, length_byteBits]
  · rw [shiftByte_plan, clockLevels_bits, length_pulses, length_byteBits]
  · rw [tubeFrame_plan, length_bits, List.length_append, length_byteBits, length_byteBits]

/-! Two operations on the wire are their events one after the other. -/

/-- The state with its progress registers at the values given (rule R22). -/
def inProgress (busy : Bool) (upc : Nat) (s : State) : State := { s with busy := busy, upc := upc }

theorem emitAll_inProgress (es : List Event) (busy : Bool) (upc : Nat) (s : State) :
    emitAll es (inProgress busy upc s) = inProgress busy (upc + es.length) (emitAll es s) := by
  induction es generalizing upc s with
  | nil => rfl
  | cons e es ih =>
    have hemit : emit e (inProgress busy upc s) = inProgress busy (upc + 1) (emit e s) := by cases e <;> rfl
    rw [emitAll_cons, hemit, ih, emitAll_cons, List.length_cons, Nat.add_right_comm, Nat.add_assoc]

theorem inProgress_inProgress (b c : Bool) (m n : Nat) (s : State) :
    inProgress b m (inProgress c n s) = inProgress b m s := rfl

/-- An operation that stages and commits nothing is its events on the state at rest. -/
theorem completed_eq_emitAll {i : Instr} {s : State} (hbuf : (planOf i s).buf = s.buf)
    (hcommits : (planOf i s).commits = false) :
    completed i s = inProgress false 0 (emitAll (planOf i s).events s) := by
  have hbegin : beginPlan (planOf i s) s = inProgress true 0 s := by rw [beginPlan, hbuf, inProgress]
  rw [completed, hbegin, emitAll_inProgress, endPlan, hcommits]
  rfl

theorem completed_tubeFrame_eq_shiftBytes (ctl dig : Byte) (s : State) :
    completed (.tubeFrame ctl dig) s = completed (.shiftByte dig) (completed (.shiftByte ctl) s) := by
  rw [completed_eq_emitAll (i := .tubeFrame ctl dig) rfl rfl, completed_eq_emitAll (i := .shiftByte dig) rfl rfl,
    completed_eq_emitAll (i := .shiftByte ctl) rfl rfl, tubeFrame_plan, shiftByte_plan, shiftByte_plan,
    emitAll_inProgress, inProgress_inProgress, List.flatMap_append, emitAll_append]

/-- An operation leaves the port as ready as it found it. -/
theorem completed_cmdReady (i : Instr) {s : State} (h : s.cmdReady = true) : (completed i s).cmdReady = true := by
  obtain ⟨-, hexists⟩ := (cmdReady_iff s).mp h
  rw [cmdReady_iff]
  simpa using hexists

/-- Settles O16: a frame's events are those of its two bytes, and only `upc` and `busy` tell the two runs apart. -/
theorem tubeFrameIsTwoShiftBytes : Obligations.TubeFrameIsTwoShiftBytes := by
  intro ctl dig s hready
  refine ⟨_, _, exec_ready _ hready, exec_ready _ (completed_cmdReady _ hready), ?_, ?_⟩
  · rw [← completed_tubeFrame_eq_shiftBytes]
    exact exec_ready _ hready
  · rw [← completed_tubeFrame_eq_shiftBytes]
    exact completed_tubeFrame ctl dig s

/-! `LATCH`. -/

/-- Settles O14: whatever the line was, its low drive makes the high one a rising edge, which captures. -/
theorem latchCompletes : Obligations.LatchCompletes := by
  intro s hready
  have hevents : (planOf .latch s).events = latchEvents := rfl
  rw [exec_ready _ hready, completed, hevents, emitAll_latchEvents]
  rfl

/-- Settles O15: the line is driven low, then high. -/
theorem latchEdges : Obligations.LatchEdges := by
  intro s hready
  refine ⟨_, latchEvents, exec_ready _ hready, completed_trace .., lat_after_latch rfl s, latchLevels_latch, ?_, ?_⟩
  · rw [latchLevels_latch]
    simp [Trace.rises]
  · rw [latchLevels_latch]
    simp [Trace.falls]

/-! The brightness gate. -/

/-- Settles O18: the DIGITAL backend's one event is the diagnostic, which has no effect. -/
theorem setBrightnessOnDigital : Obligations.SetBrightnessOnDigital := by
  intro level s hready hdigital
  rw [exec_setBrightness_of_ready level hready]
  simp [hdigital, dutyAfter, brightnessEvents]

theorem dutyFraction_le_iff (a b : Byte) : dutyFraction a ≤ dutyFraction b ↔ a.toNat ≤ b.toNat := by
  rw [dutyFraction, dutyFraction, div_le_div_iff_of_pos_right (by norm_num), Nat.cast_le]

theorem dutyFraction_zero : dutyFraction 0 = 0 := by simp [dutyFraction]

theorem dutyFraction_full : dutyFraction 255 = 1 := by simp [dutyFraction]

/-- Settles O19: dividing by 255 keeps the order of the levels, whose ends are 0 and 255. -/
theorem dutyFractionLinear : Obligations.DutyFractionLinear := by
  refine ⟨dutyFraction_zero, dutyFraction_full, fun a => ⟨?_, ?_, ?_⟩, fun a b => (dutyFraction_le_iff a b).symm, ?_⟩
  · exact dutyFraction_zero ▸ (dutyFraction_le_iff 0 a).mpr (Nat.zero_le _)
  · exact dutyFraction_full ▸ (dutyFraction_le_iff a 255).mpr (Nat.le_of_lt_succ a.isLt)
  · exact div_mul_cancel₀ _ (by norm_num)
  · intro a b h
    exact BitVec.eq_of_toNat_eq
      (le_antisymm ((dutyFraction_le_iff a b).mp h.le) ((dutyFraction_le_iff b a).mp h.ge))

end Sys2Proof.Machine
end

section
/-! PROOFS. The staging setters: what `SET_TUBE` in range and `SET_NUMBER` write, digit by digit (rules R43, R140, R143
to R149). -/

namespace Sys2Proof.Machine

theorem exec_setTube_ready {index : Nat} {d : Digit} {c : Color} {v m : Bool} {b : Byte} {s : State}
    (hready : s.cmdReady = true) (h : index < s.cfg.numTubes) :
    exec (.setTube index d c v m b) s = .next { s with
      buf := Memory.write s.buf index
        { digit := d, color := c, voltageEnabled := v, comma := m, brightness := b }, upc := 0, busy := false } := by
  rw [exec_eq_runPlan, runPlan_silent _ hready rfl]
  simp [planOf, planSetTube, indexInRange, h]

/-- Settles O21: in range the plan stages a write at the index, which is read back there and nowhere else. -/
theorem setTubeWritesOneEntry : Obligations.SetTubeWritesOneEntry := by
  intro index d c v m b s hready hbuf hindex
  refine ⟨_, exec_setTube_ready hready hindex, rfl, Memory.wf_write rfl .., ?_, fun j hj => ?_⟩
  · exact Memory.read_write_same (hbuf ▸ hindex) _
  · exact Memory.read_write_other hj.symm ..

/-! The digits of a number. -/

/-- `D[k]` is the digit of weight `10^k` of the base-10 numeral (rule R143). -/
theorem decimalDigit_eq_getD (m k : Nat) : decimalDigit m k = Fin.ofNat 10 ((Nat.digits 10 m).getD k 0) := by
  rw [Nat.getD_digits m k (by omega)]
  apply Fin.eq_of_val_eq
  simp [decimalDigit]

/-- A number has no digit beyond its numeral, so a leading zero is the digit of its weight. -/
theorem decimalDigit_of_length_le {m k : Nat} (h : decimalLength m ≤ k) : decimalDigit m k = 0 := by
  rw [decimalDigit_eq_getD, List.getD_eq_default _ _]
  · rfl
  · rw [decimalLength_eq] at h
    split at h
    · simp_all
    · exact h

theorem numberDigit_of_zeros (m i : Nat) : numberDigit m true i = .figure (decimalDigit m i) := by
  rw [numberDigit]
  split
  · rfl
  · rw [decimalDigit_of_length_le (by omega)]
    rfl

/-- Dropping the digits from weight `10^n` on keeps those below. -/
theorem decimalDigit_mod {m n k : Nat} (h : k < n) : decimalDigit (m % 10 ^ n) k = decimalDigit m k := by
  have hsplit : 10 ^ n = 10 ^ k * 10 ^ (n - k) := by rw [← pow_add, Nat.add_sub_cancel' h.le]
  apply Fin.eq_of_val_eq
  simp only [decimalDigit, Fin.val_ofNat]
  rw [hsplit, Nat.mod_mul_right_div_self, Nat.mod_mod_of_dvd _ (dvd_pow_self 10 (by omega))]

theorem lt_decimalLength {m n k : Nat} (hm : 10 ^ n ≤ m) (h : k < n) : k < decimalLength m := by
  have hpos : 0 < m := (Nat.pow_pos (by omega)).trans_le hm
  rw [decimalLength_eq, if_neg hpos.ne', Nat.lt_digits_length_iff (by omega)]
  exact (Nat.pow_le_pow_right (by omega) h.le).trans hm

theorem exec_setNumber_ready {value : Int} {c : Color} {z : Bool} {b : Byte} {s : State} (hready : s.cmdReady = true) :
    exec (.setNumber value c z b) s = .next { s with
      buf := Memory.fill s.cfg.numTubes fun i => numberEntry c b (numberDigit value.natAbs z i)
      upc := 0, busy := false } := by
  rw [exec_eq_runPlan, runPlan_silent _ hready rfl]
  simp [planOf, planSetNumber]

theorem numberDigit_eq_numeral (m : Nat) (z : Bool) (i : Nat) {numeral : List Nat}
    (h : numeral = if m = 0 then [0] else Nat.digits 10 m) :
    numberDigit m z i =
      if i < numeral.length then .figure (Fin.ofNat 10 (numeral.getD i 0)) else if z then .figure 0 else .blank := by
  have hlength : numeral.length = decimalLength m := by
    rw [decimalLength_eq, h]
    split <;> rfl
  have hdigit : Fin.ofNat 10 (numeral.getD i 0) = decimalDigit m i := by
    rw [decimalDigit_eq_getD, h]
    split
    · rename_i hzero
      cases i <;> simp [hzero]
    · rfl
  rw [numberDigit, hlength, hdigit]

/-- Settles O23: every entry is staged from the digit of its weight. -/
theorem setNumberWritesTheNumeral : Obligations.SetNumberWritesTheNumeral := by
  intro value c z b s numeral hready hnumeral
  refine ⟨_, exec_setNumber_ready hready, rfl, Memory.wf_fill .., fun i hi => ?_⟩
  rw [← numberDigit_eq_numeral _ z i hnumeral]
  exact Memory.read_fill hi _

theorem fill_congr {n : Nat} {f g : Nat → TubeState} (h : ∀ i, i < n → f i = g i) : Memory.fill n f = Memory.fill n g :=
  List.map_congr_left fun i hi => h i (List.mem_range.mp hi)

/-- Settles O25: every tube has a digit of the numeral, which is that of the number cut to the chain's length. -/
theorem setNumberKeepsLowDigits : Obligations.SetNumberKeepsLowDigits := by
  intro value c z b s hlong
  have hplan : planOf (.setNumber value c z b) s =
      planOf (.setNumber ((value.natAbs % 10 ^ s.cfg.numTubes : Nat) : Int) c true b) s := by
    simp only [planOf, planSetNumber, Int.natAbs_natCast, numberDigit_of_zeros]
    congr 1
    refine fill_congr fun i hi => ?_
    rw [numberDigit, if_pos (lt_decimalLength hlong hi), decimalDigit_mod hi]
  rw [exec_eq_runPlan, exec_eq_runPlan, hplan]

end Sys2Proof.Machine
end

section
/-! PROOFS. The render and the clear: what they leave, what they emit and in which order, and what the tubes then show
(rules R13, R44 to R47, R131, R150 to R155, R207). -/

namespace Sys2Proof.Machine

/-! The plan of a render. -/

theorem render_plan (s : State) :
    planOf .render s = { buf := s.buf, events := renderEvents s.cfg.layout s.backend s.buf, commits := true } := rfl

/-- The state whose buffer a clear renders (rule R155). -/
def cleared (s : State) : State := { s with buf := List.replicate s.cfg.numTubes TubeState.dflt }

theorem clear_plan (s : State) : planOf .clear s = planOf .render (cleared s) := by
  simp only [planOf, planClear, planRender, fill_const, cleared]

/-- The levels of a list of brightnesses driven last index first: the last one is that of the first entry. -/
theorem getLastD_reverse {α : Type} (xs : List α) (a : α) : xs.reverse.getLastD a = xs.headD a := by
  cases xs <;> simp

/-- The duty a render leaves is that of tube 0 on PWM (rule R131). -/
theorem render_dutyLevel (s : State) :
    (completed .render s).dutyLevel =
      if s.backend = .pwm then (s.buf.map (·.brightness)).headD s.dutyLevel else s.dutyLevel := by
  rw [completed_dutyLevel, render_plan, dutyLevels_render]
  split
  · exact getLastD_reverse ..
  · rfl

theorem render_dutyLevel_of_pwm {s : State} {x : TubeState} (hx : s.buf[0]? = some x) (h : s.backend = .pwm) :
    (completed .render s).dutyLevel = x.brightness := by
  rw [render_dutyLevel, if_pos h]
  cases hbuf : s.buf with
  | nil => simp [hbuf] at hx
  | cons y ys => simp_all

theorem render_committed (s : State) : (completed .render s).committed = some (completed .render s).buf := by
  rw [completed_committed, completed_buf, render_plan]
  rfl

/-- The state a render leaves. -/
theorem completed_render (s : State) :
    completed .render s = { s with
      clk := (completed .render s).clk, dat := (completed .render s).dat, lat := true
      dutyLevel := (completed .render s).dutyLevel, sr := (completed .render s).sr
      store := (completed .render s).store, committed := some s.buf, trace := (completed .render s).trace
      upc := 0, busy := false } := by
  conv_lhs => rw [completed_eq, planOf_latchLevels, ← completed_clk, ← completed_dat, ← completed_dutyLevel,
    ← completed_trace]
  rfl

/-- Settles O26: a render stages the buffer it finds, commits it and latches. -/
theorem renderCompletes : Obligations.RenderCompletes := fun s hready _ =>
  ⟨_, exec_ready _ hready, completed_render s, clk_rests _⟩

/-- A list is its entries, index by index. -/
theorem flatMap_range_getElem? {α β : Type} (xs : List α) (f : α → List β) :
    ((List.range xs.length).reverse.flatMap fun i => xs[i]?.toList.flatMap f) = xs.reverse.flatMap f := by
  have hentries : ((List.range xs.length).map fun i => xs[i]?) = xs.map some := by
    apply List.ext_getElem <;> simp
  calc ((List.range xs.length).reverse.flatMap fun i => xs[i]?.toList.flatMap f)
      = ((List.range xs.length).map fun i => xs[i]?).reverse.flatMap fun o => o.toList.flatMap f := by
        rw [← List.map_reverse, List.flatMap_map]
    _ = xs.reverse.flatMap f := by
        rw [hentries, ← List.map_reverse, List.flatMap_map]
        simp

/-- Settles O27: the buffer's entries from the last on, each its brightness event and its two bytes, then one latch. -/
theorem renderSendsTheTubesInOrder : Obligations.RenderSendsTheTubesInOrder := by
  intro s hready hbuf
  refine ⟨_, exec_ready _ hready, (completed_trace ..).trans ?_⟩
  have htube : (fun x : TubeState => (if s.backend = .pwm then Event.duty x.brightness else .diag x.brightness) ::
      (byteEvents (encodeTube s.cfg.layout x).ctl ++ byteEvents (encodeTube s.cfg.layout x).dig)) =
      tubeEvents s.cfg.layout s.backend := by
    funext x
    rw [tubeEvents, frameEvents]
    cases s.backend <;> rfl
  rw [render_plan, renderEvents, htube, ← hbuf, flatMap_range_getElem?, List.append_assoc]
  rfl

/-! Where the bits of a render stand on the wire, and where they end. -/

/-- Bit 15 of the frame is sent first, bit 0 last. -/
theorem frameBits_eq (f : Frame) : frameBits f = (List.range 16).map fun j => f.word.getLsbD (15 - j) := by
  have hctl : byteBits f.ctl = [7, 6, 5, 4, 3, 2, 1, 0].map fun k => f.word.getLsbD (8 + k) :=
    List.map_congr_left fun k _ => (frameWord_high f k).symm
  have hdig : byteBits f.dig = [7, 6, 5, 4, 3, 2, 1, 0].map f.word.getLsbD :=
    List.map_congr_left fun k hk => (frameWord_low f (by revert k; decide)).symm
  rw [frameBits, hctl, hdig]
  rfl

theorem frameBits_getElem? (f : Frame) {j : Nat} (h : j < 16) :
    (frameBits f)[j]? = some (f.word.getLsbD (15 - j)) := by
  simp [frameBits_eq, h]

theorem frameBits_reverse_getElem? (f : Frame) {j : Nat} (h : j < 16) :
    (frameBits f).reverse[j]? = some (f.word.getLsbD j) := by
  rw [List.getElem?_reverse (by rwa [length_frameBits]), length_frameBits, frameBits_getElem? f (by omega)]
  congr 2
  omega

/-- The two bytes of a frame by the order their bits are sent in. -/
theorem frameWord_bit_sent (f : Frame) (j : Nat) (h : j < 16) :
    f.word.getLsbD (15 - j) = if j ≤ 7 then f.ctl.getLsbD (7 - j) else f.dig.getLsbD (15 - j) := by
  split
  · rw [show 15 - j = 8 + (7 - j) by omega, frameWord_high]
  · exact frameWord_low f (by omega)

section
variable {l : CtlLayout} {buf : List TubeState} {i : Nat} {x : TubeState}

/-- Tube `i` is sent as the `i`-th from the end. -/
theorem renderBits_getElem? (h : buf[i]? = some x) {j : Nat} (hj : j < 16) :
    (renderBits l buf)[16 * (buf.length - 1 - i) + j]? = some ((encodeTube l x).word.getLsbD (15 - j)) := by
  have hi : i < buf.length := (List.getElem?_eq_some_iff.mp h).1
  have hx : buf.reverse[buf.length - 1 - i]? = some x := by
    rw [List.getElem?_reverse (by omega), show buf.length - 1 - (buf.length - 1 - i) = i by omega, h]
  rw [renderBits, getElem?_flatMap_sixteen _ (fun _ => length_frameBits _) _ hx hj, frameBits_getElem? _ hj]

/-- The last bit sent is the nearest, so tube `i` has the `i`-th sixteen stages. -/
theorem renderBits_reverse_getElem? (h : buf[i]? = some x) {j : Nat} (hj : j < 16) :
    (renderBits l buf).reverse[16 * i + j]? = some ((encodeTube l x).word.getLsbD j) := by
  rw [renderBits, List.reverse_flatMap, List.reverse_reverse,
    getElem?_flatMap_sixteen (List.reverse ∘ fun t => frameBits (encodeTube l t))
      (fun _ => List.length_reverse.trans (length_frameBits _)) _ h hj]
  exact frameBits_reverse_getElem? _ hj

end

/-- From a low clock a render shifts its bits in, and its latch captures them. -/
theorem render_tubes {s : State} (h : s.clk = false) :
    (completed .render s).sr = shiftAll (renderBits s.cfg.layout s.buf) s.sr ∧
      (completed .render s).store = (completed .render s).sr := by
  rw [completed, render_plan, renderEvents, emitAll_append, emitAll_latchEvents,
    emitAll_tubes _ _ _ (s := beginPlan _ s) h]
  exact ⟨rfl, rfl⟩

/-- A render of a whole buffer fills the chain, whatever it held. -/
theorem render_fills_chain {s : State} (hready : s.cmdReady = true) (hs : s.Consistent) :
    (completed .render s).sr = (renderBits s.cfg.layout s.buf).reverse ∧
      (completed .render s).store = (renderBits s.cfg.layout s.buf).reverse := by
  obtain ⟨-, hexists⟩ := (cmdReady_iff s).mp hready
  obtain ⟨hlength, -⟩ := hs.stages
  obtain ⟨hsr, hstore⟩ := render_tubes (hs.clock hexists)
  have hfull : s.sr.length = (renderBits s.cfg.layout s.buf).reverse.length := by
    rw [List.length_reverse, length_renderBits, hlength, hs.buffer hexists]
  rw [shiftAll_eq, hfull, List.take_left] at hsr
  exact ⟨hsr, hstore.trans hsr⟩

theorem rises_render {s : State} (h : s.clk = false) :
    Trace.rises s.clk (Trace.clockLevels (planOf .render s).events) = 16 * s.buf.length := by
  rw [h, render_plan, clockLevels_render, rises_pulses, length_renderBits]

/-- Settles O28: tube `i` is the `i`-th from the end of the stream, and what is sent last ends nearest. -/
theorem renderWireOrder : Obligations.RenderWireOrder := by
  intro s hready hs
  obtain ⟨-, hexists⟩ := (cmdReady_iff s).mp hready
  have hbuf : s.buf.length = s.cfg.numTubes := hs.buffer hexists
  have hdata : Trace.dataLevels (planOf .render s).events = renderBits s.cfg.layout s.buf := dataLevels_render ..
  refine ⟨_, _, exec_ready _ hready, completed_trace .., ?_, ?_, fun i x hx j hj => ?_⟩
  · rw [hdata, length_renderBits, hbuf]
  · rw [rises_render (hs.clock hexists), hbuf]
  · obtain ⟨hsr, -⟩ := render_fills_chain hready hs
    rw [hdata, ← hbuf, ← frameWord_bit_sent _ j hj, hsr]
    exact ⟨renderBits_getElem? hx hj, renderBits_getElem? hx hj, renderBits_reverse_getElem? hx hj⟩

/-! What the tubes then show. -/

theorem render_ends_with_latch (s : State) : (planOf .render s).events.getLast? = some (.lat true) := by
  simp [render_plan, renderEvents, latchEvents]

theorem rises_latch_of_render (s : State) :
    Trace.rises s.lat (Trace.latchLevels (planOf .render s).events) = 1 := by
  simp [render_plan, latchLevels_render, Trace.rises]

/-- The last bit of a render is bit 0 of the digit byte of tube 0. -/
theorem render_dat {s : State} {x : TubeState} (hx : s.buf[0]? = some x) :
    (completed .render s).dat = (encodeTube s.cfg.layout x).dig.getLsbD 0 := by
  obtain ⟨xs, hbuf⟩ : ∃ xs, s.buf = x :: xs := by
    cases hbuf : s.buf with
    | nil => simp [hbuf] at hx
    | cons y ys => simp_all
  rw [completed_dat, render_plan, dataLevels_render, renderBits, hbuf, List.reverse_cons, List.flatMap_append]
  simp [frameBits, byteBits]

theorem digitByte_bit_zero (d : Digit) : (digitByte d).getLsbD 0 = decide (d = .figure 0) := by
  cases d with
  | blank => rfl
  | figure e => revert e; decide

/-- Settles O29: the render fills the chain, and its one latch edge, the last event, shows it. -/
theorem renderShowsTheBuffer : Obligations.RenderShowsTheBuffer := by
  intro s hready hs
  obtain ⟨-, hexists⟩ := (cmdReady_iff s).mp hready
  obtain ⟨-, hstore⟩ := render_fills_chain hready hs
  refine ⟨_, _, exec_ready _ hready, completed_trace .., fun i x hx m hm => ?_, ?_, rises_latch_of_render s,
    render_ends_with_latch s, clk_rests _ (hs.clock hexists), lat_after_latch rfl s, fun x hx => ⟨render_dat hx, ?_,
    render_dutyLevel_of_pwm hx⟩, fun hdigital => ?_, completed_buf .render s, render_committed s⟩
  · rw [hstore, renderBits_reverse_getElem? hx hm]
  · simp only [render_plan, dataLevels_render, renderBits, frameBits_eq]
  · rw [render_dat hx]
    exact digitByte_bit_zero x.digit
  · rw [dutyLevel_of_digital _ hdigital, hs.pinned hexists hdigital]

/-! Counts, determinism, brightness and durations. -/

/-- Settles O30: 97 events a tube and three for the latch. -/
theorem renderCounts : Obligations.RenderCounts := by
  intro s hready hbuf hclk
  refine ⟨_, _, exec_ready _ hready, completed_trace .., ?_, ?_, rises_latch_of_render s, render_ends_with_latch s, ?_⟩
  · rw [render_plan, length_render, hbuf]
  · rw [rises_render hclk, hbuf]
  · rw [render_plan, brightnessLevels_render, List.length_reverse, List.length_map, hbuf]

/-- Settles O31: a render's plan reads buffer, backend and layout, and the render changes none of them. -/
theorem renderEventsDependOnBufferOnly : Obligations.RenderEventsDependOnBufferOnly := by
  intro s u hready huready hbuf hbackend _ hlayout
  have hplan : planOf .render u = planOf .render s := by simp only [render_plan, hbuf, hbackend, hlayout]
  have hagain : planOf .render (completed .render s) = planOf .render s := by simp [render_plan]
  refine ⟨(planOf .render s).events, _, _, _, exec_ready _ hready, exec_ready _ huready, completed_trace .., ?_,
    exec_ready _ (completed_cmdReady _ hready), ?_⟩
  · rw [completed_trace, hplan]
  · rw [completed_trace, hagain]

/-- Settles O32: one brightness event a tube, and the duty is the last one commanded. -/
theorem renderBrightnessLastWriteWins : Obligations.RenderBrightnessLastWriteWins := by
  intro s hready
  exact ⟨_, _, exec_ready _ hready, completed_trace .., brightnessLevels_render .., fun x hx =>
    render_dutyLevel_of_pwm hx, dutyLevel_of_digital _⟩

/-- The buffer a clear resets is staged before its first event. -/
theorem completed_clear (s : State) : completed .clear s = completed .render (cleared s) := by
  simp only [completed, clear_plan]
  rfl

/-- Settles O33: a clear is the render of the reset buffer, whose brightness is 0. -/
theorem clearCompletes : Obligations.ClearCompletes := by
  intro s hready htubes
  have hfirst : (cleared s).buf[0]? = some TubeState.dflt := List.getElem?_replicate_of_lt htubes
  refine ⟨completed .render (cleared s), ?_, exec_ready (s := cleared s) .render hready,
    completed_buf .render (cleared s), render_committed (cleared s), render_dutyLevel_of_pwm hfirst,
    dutyLevel_of_digital (s := cleared s) .render, ?_⟩
  · rw [exec_ready _ hready, completed_clear]
  · conv_lhs => rw [completed_render]
    rw [render_committed, completed_buf]
    rfl

/-- Settles O34: 48 holds a tube and one for the latch. -/
theorem operationDurations : Obligations.OperationDurations := by
  intro s hready hbuf
  refine ⟨⟨_, _, exec_ready _ hready, completed_trace .., ?_⟩, ⟨_, _, exec_ready _ hready, completed_trace .., ?_⟩,
    fun value => ⟨_, _, exec_ready _ hready, completed_trace .., ?_⟩, _, _, exec_ready _ hready, completed_trace .., ?_⟩
  · rw [render_plan, duration_render, hbuf]
  · rw [clear_plan, render_plan, duration_render, cleared, List.length_replicate]
  · rw [shiftByte_plan, duration_bits, length_byteBits, ← Nat.mul_assoc]
  · exact duration_latch _

end Sys2Proof.Machine
end
